-- ==== Sys2Proof/Word.lean ====
section
/-! DEFINITION. The word types of the FHP frame packer: the 32-bit command word and readback word (R26, R27), the
8-bit sample and sink byte (R24, R61), and the 28-bit operand field of a command (R80). -/

namespace Sys2Proof

/-- A command word or a readback word: 32 bits (R23). -/
abbrev Word := BitVec 32

/-- A sample, or a byte offered to the sink: 8 bits, unsigned (R10, R23). -/
abbrev Byte := BitVec 8

/-- The operand field ARG = `cmd_word[27:0]` of format C (R80). -/
abbrev Arg := BitVec 28

end Sys2Proof
end

