-- ==== Sys2Proof/Syntax.lean ====
section
/-! DEFINITION. The commands of FHP command set 1, one constructor per row of `spec/opcode_table.json` (R83): the nine
commands and the seven reserved opcodes. -/

namespace Sys2Proof

/-- A decoded command. A fixed-width operand is the field R82 names. The operand of SETW, SETH and SETLEN is as wide as
a parameter of the build says, so these three carry the whole ARG field and their meanings take the low `DIM_BITS` or
`ADDR_BITS` bits of it (R82, `Machine/Operands.lean`). -/
inductive Instr where
  /-- NOP (R172). -/
  | nop
  /-- SETW: set the width (R173). -/
  | setw (arg : Arg)
  /-- SETH: set the height (R174). -/
  | seth (arg : Arg)
  /-- SETLEN: set the buffer length (R175). -/
  | setlen (arg : Arg)
  /-- SETCFG: set the configuration (R176); bit 0 SRC, bit 1 TAIL, bit 2 MAPLIT. -/
  | setcfg (cfg : BitVec 3)
  /-- START: begin a frame (R177). -/
  | start
  /-- SAMPLE: feed one sample, stream mode (R178). -/
  | sample (value : Byte)
  /-- END: input exhausted, stream mode (R179). -/
  | endInput
  /-- CLEAR: leave ERROR, or clear DONE in IDLE (R180). -/
  | clear
  /-- Reserved opcode 0x9 (R181). -/
  | reserved9
  /-- Reserved opcode 0xA (R181). -/
  | reservedA
  /-- Reserved opcode 0xB (R181). -/
  | reservedB
  /-- Reserved opcode 0xC (R181). -/
  | reservedC
  /-- Reserved opcode 0xD (R181). -/
  | reservedD
  /-- Reserved opcode 0xE (R181). -/
  | reservedE
  /-- Reserved opcode 0xF (R181). -/
  | reservedF
deriving DecidableEq, Repr

/-- The rows of the verdict table of R171: the nine mnemonics, and the reserved class. -/
inductive Opcode where
  | nop | setw | seth | setlen | setcfg | start | sample | endInput | clear | reserved
deriving DecidableEq, Repr

end Sys2Proof
end

