-- ==== Sys2Proof/Decode.lean ====
section
/-! DEFINITION. Decoding and encoding of the one command format, format C (R80 to R87). Decoding is total: every 32-bit
word is one of the nine commands or of the reserved class (R87). -/

namespace Sys2Proof

/-- ARG = `cmd_word[27:0]` (R80). -/
def argField (w : Word) : Arg := w.extractLsb' 0 28

/-- OP = `cmd_word[31:28]` (R80). -/
def opField (w : Word) : BitVec 4 := w.extractLsb' 28 4

/-- The opcode map of R83, read from the four bits 31, 30, 29, 28 of the word; then the ARG bits the opcode reads
(R82). The bits it does not read are dropped (R84). -/
def decode (w : Word) : Instr :=
  match w.getLsbD 31, w.getLsbD 30, w.getLsbD 29, w.getLsbD 28 with
  | false, false, false, false => .nop
  | false, false, false, true => .setw (argField w)
  | false, false, true, false => .seth (argField w)
  | false, false, true, true => .setlen (argField w)
  | false, true, false, false => .setcfg (w.extractLsb' 0 3)
  | false, true, false, true => .start
  | false, true, true, false => .sample (w.extractLsb' 0 8)
  | false, true, true, true => .endInput
  | true, false, false, false => .clear
  | true, false, false, true => .reserved9
  | true, false, true, false => .reservedA
  | true, false, true, true => .reservedB
  | true, true, false, false => .reservedC
  | true, true, false, true => .reservedD
  | true, true, true, false => .reservedE
  | true, true, true, true => .reservedF

/-- The row of the verdict table (R171) a command belongs to. -/
def Instr.opcode : Instr → Opcode
  | .nop => .nop
  | .setw _ => .setw
  | .seth _ => .seth
  | .setlen _ => .setlen
  | .setcfg _ => .setcfg
  | .start => .start
  | .sample _ => .sample
  | .endInput => .endInput
  | .clear => .clear
  | .reserved9 => .reserved
  | .reservedA => .reserved
  | .reservedB => .reserved
  | .reservedC => .reserved
  | .reservedD => .reserved
  | .reservedE => .reserved
  | .reservedF => .reserved

/-- The OP value of a command (R83). -/
def Instr.opBits : Instr → BitVec 4
  | .nop => 0x0
  | .setw _ => 0x1
  | .seth _ => 0x2
  | .setlen _ => 0x3
  | .setcfg _ => 0x4
  | .start => 0x5
  | .sample _ => 0x6
  | .endInput => 0x7
  | .clear => 0x8
  | .reserved9 => 0x9
  | .reservedA => 0xA
  | .reservedB => 0xB
  | .reservedC => 0xC
  | .reservedD => 0xD
  | .reservedE => 0xE
  | .reservedF => 0xF

/-- The ARG field of a command, with every bit its opcode does not read 0 (R82, R84). -/
def Instr.argBits : Instr → Arg
  | .nop => 0
  | .setw arg => arg
  | .seth arg => arg
  | .setlen arg => arg
  | .setcfg cfg => cfg.setWidth 28
  | .start => 0
  | .sample value => value.setWidth 28
  | .endInput => 0
  | .clear => 0
  | .reserved9 => 0
  | .reservedA => 0
  | .reservedB => 0
  | .reservedC => 0
  | .reservedD => 0
  | .reservedE => 0
  | .reservedF => 0

/-- "Each line assembles to `(OP << 28) | operand`" (R88): the word of a command. -/
def encode (i : Instr) : Word := i.opBits ++ i.argBits

/-- The command the decoder reads from a word as `spec/opcode_table.json` numbers its bits. A command is one 32-bit
word that arrives whole on `cmd_word`, so no byte order arises (R63, R81); a longer word is no command. -/
def decodeTableWord (nbits w : Nat) : Option Instr :=
  if nbits ≤ 32 then some (decode (BitVec.ofNat 32 (w % 2 ^ nbits))) else none

end Sys2Proof
end

