-- ==== Sys2Proof/Config.lean ====
section
/-! DEFINITION. What an implementation of the FHP fixes (the parameters of R8), the protocol constants of R9, and the
free values: constants without a body, for what the spec leaves open (`93_implementation_defined.md`). -/

namespace Sys2Proof

/-- The implementation parameters of R8. "A model takes each one as an argument": since `exec` and `step` take a state
and nothing else, a state carries the parameters of its build and no step changes them (log entry 1). -/
structure Params where
  /-- `DIM_BITS`: the width of WIDTH and HEIGHT. -/
  dimBits : Nat
  /-- `ADDR_BITS`: the width of LEN and of the sample-memory address. -/
  addrBits : Nat
  /-- `PAUSE_CYCLES`: the length of one pacing pause in clock cycles. -/
  pauseCycles : BitVec 32
  /-- `CLK_HZ`: the clock frequency; informational, no rule reads it (R240). -/
  clkHz : Nat
deriving DecidableEq, Repr

/-- The legal ranges of R8. -/
abbrev Params.Legal (p : Params) : Prop :=
  7 ≤ p.dimBits ∧ p.dimBits ≤ 14 ∧ 13 ≤ p.addrBits ∧ p.addrBits ≤ 28 ∧ p.pauseCycles ≠ 0 ∧ 0 < p.clkHz

namespace Config

/-- OPEN (R8, D21): the spec gives `PAUSE_CYCLES` no default. A free value, one less than the pause length, so that
the length lies in its legal range 1 to 2^32 − 1 (log entry 2). -/
opaque pauseCyclesLessOne : Fin 4294967295

/-- OPEN (R8, D21): the clock frequency less one; no rule reads it (log entry 2). -/
opaque clkHzLessOne : Nat

/-- The parameters of the build `State.reset` describes: the spec's defaults for the two widths, and free values for
the two parameters the spec leaves OPEN (R8). -/
def defaultParams : Params where
  dimBits := 12
  addrBits := 24
  pauseCycles := BitVec.ofNat 32 (pauseCyclesLessOne.val + 1)
  clkHz := clkHzLessOne + 1

/-- The byte an address of the sample memory holds that the host has never written: "any value, per address"
(`93_implementation_defined.md`; R49, R61). A free value (log entry 3). -/
opaque unwrittenByte : Nat → Byte

/-- The byte the n-th read of an address returns that the host wrote during the running mapper-mode frame: "a draw with
no law, not the old value and not the new one" (R69). A free value, indexed by the model's draw counter (log entry 4). -/
opaque drawByte : Nat → Byte

/-- `PRE_LEN` (R9): the preamble length in bytes. -/
def preLen : Nat := 11
/-- `PRE_BYTE` (R9): 0x23, ASCII `#`. -/
def preByte : Byte := 0x23
/-- `THRESH` (R9): a sample gives bit 1 iff it is greater than this. -/
def thresh : Byte := 127
/-- `BITS_PER_BYTE` (R9): samples per payload byte. -/
def bitsPerByte : Nat := 8
/-- `BLOCK_BYTES` (R9): payload bytes per block. -/
def blockBytes : Nat := 8
/-- `PAD_BYTE` (R9). -/
def padByte : Byte := 0x00
/-- The constant readback register ID (R40): the ASCII codes of "FHP1". -/
def id : Word := 0x46485031

end Config

end Sys2Proof
end

