-- ==== Sys2Proof/Machine/State.lean ====
section
/-! DEFINITION. The machine's state as plain data: the registers of R30 to R44, the sample memory (R61), and the
model's own fields for the machine's surroundings (the build's parameters, the input pins of the coming cycles, the
frame trace of R15). -/

namespace Sys2Proof.Machine

/-- The sequencer states of R30. Codes 10 to 14 "are never written" and have no constructor (log entry 5). -/
inductive SeqState where
  | idle | pre | preFl | run | fetch | emit | pad | blkFl | pause | endFl | error
deriving DecidableEq, Repr

/-- The error codes of R201. Codes 6 to 15 are "never produced" and have no constructor (log entry 5). -/
inductive ErrCode where
  | noError | precond | txIo | flushIo | illegalCmd | cmdState
deriving DecidableEq, Repr

/-- The events of the frame trace (R15): a byte the sink accepted, a flush the sink completed, a completed pause. -/
inductive Event where
  | byte (b : Byte) | flush | pause
deriving DecidableEq, Repr

/-- The input pins of R23 in one clock cycle, and the byte writes the host makes to the sample memory in that cycle
through its own port (R61). `mem_rdata` is not here: the sample memory is part of the state. -/
structure CycleInput where
  rst : Bool := false
  cmdValid : Bool := false
  cmdWord : Word := 0
  rdSel : BitVec 4 := 0
  txReady : Bool := false
  txErr : Bool := false
  flDone : Bool := false
  flErr : Bool := false
  memWrites : List Host.Cell := []
deriving DecidableEq, Repr

/-- The state. Registers of a parameter's width have the widest legal width of R8 as their type, and every write keeps
only the low `DIM_BITS`, `DIM_BITS` + 1 or `ADDR_BITS` bits. ID (R40) is the constant `Config.id` and has no storage. -/
structure State where
  /-- The build's parameters (R8): constant, no step changes them. -/
  params : Params
  /-- STATE (R30). -/
  state : SeqState
  /-- ACC, the Bit Accumulator (R31). -/
  acc : Byte
  /-- BITCNT (R32). -/
  bitCnt : BitVec 4
  /-- BYTECNT (R33). -/
  byteCnt : BitVec 4
  /-- PRECNT (R34). -/
  preCnt : BitVec 4
  /-- EOI (R35). -/
  eoi : Bool
  /-- DONE (R36). -/
  done : Bool
  /-- ERR (R37). -/
  err : ErrCode
  /-- ERRSTATE (R37). -/
  errState : SeqState
  /-- WIDTH, `DIM_BITS` bits (R38). -/
  width : BitVec 14
  /-- HEIGHT, `DIM_BITS` bits (R38). -/
  height : BitVec 14
  /-- LEN, `ADDR_BITS` bits (R38). -/
  len : BitVec 28
  /-- CFG: bit 0 SRC, bit 1 TAIL, bit 2 MAPLIT (R39). -/
  cfg : BitVec 3
  /-- CUR_X, `DIM_BITS` + 1 bits (R41). -/
  curX : BitVec 15
  /-- CUR_Y, `DIM_BITS` + 1 bits (R41). -/
  curY : BitVec 15
  /-- PAUSECNT (R42). -/
  pauseCnt : BitVec 32
  /-- SAMPLES (R43). -/
  samples : BitVec 32
  /-- TXBYTES (R43). -/
  txBytes : BitVec 32
  /-- BLOCKS (R43). -/
  blocks : BitVec 32
  /-- TAILBITS (R44). -/
  tailBits : BitVec 4
  /-- TAILEMIT (R44). -/
  tailEmit : Bool
  /-- The sample memory (R61): the bytes the host has written, strictly rising by address. -/
  mem : List Host.Cell
  /-- The addresses whose reads are draws (R69), strictly rising. -/
  unstable : List Nat
  /-- The address of the read in flight: the memory's own record of the last `mem_addr` with `mem_en` = 1 (R47, R62). -/
  readAddr : BitVec 28
  /-- The model's own: how many draws have been taken, the index of the next (R69). -/
  draws : Nat
  /-- The model's own: whether a reset edge has come since power-on (R233). -/
  everReset : Bool
  /-- The model's own: the input pins of this cycle and the coming ones, first cycle first; quiet when it runs out. -/
  inputs : List CycleInput
  /-- The frame trace of R15, oldest event first: what `emit(e)` appends to (R13). Observed, never read by the machine. -/
  trace : List Event
  /-- The model's own: the samples that have entered the packer in this frame, in order (R130); SAMPLES counts them.
  Observed, never read by the machine. -/
  taken : List Byte
deriving DecidableEq, Repr

/-- The reset state of R49 and R232, at the default parameters. The sample memory lists nothing; the host's inputs are
quiet. The fields without a reset value in R49 (`readAddr` and the model's own) are named in log entry 6. -/
def State.reset : State where
  params := Config.defaultParams
  state := .idle
  acc := 0
  bitCnt := 0
  byteCnt := 0
  preCnt := 0
  eoi := false
  done := false
  err := .noError
  errState := .idle
  width := 64
  height := 64
  len := 4096
  cfg := 0
  curX := 0
  curY := 0
  pauseCnt := 0
  samples := 0
  txBytes := 0
  blocks := 0
  tailBits := 0
  tailEmit := false
  mem := []
  unstable := []
  readAddr := 0
  draws := 0
  everReset := true
  inputs := []
  trace := []
  taken := []

/-- The faults. No command raises one. -/
inductive Fault where
  /-- Raised by `step` when the host's own memory port writes an address outside the `ADDR_BITS`-bit address space of
  the sample memory (R60), where no byte exists. Safe: the model stops where the platform may go on. -/
  | hostWriteOutsideMemory
deriving DecidableEq, Repr

/-- The refusals. -/
inductive Refusal where
  /-- A command without a meaning, rejected by name in `exec`. Safe. No arm uses it in this model. -/
  | notModelled (mnemonic : String)
  /-- Raised by `step` for a cycle without `rst` before the first reset edge: a model "refuses (has no meaning for) a
  run that starts from a state that was not reset" (R233). Safe. -/
  | neverReset
deriving DecidableEq, Repr

end Sys2Proof.Machine
end

