-- ==== Sys2Proof/Machine/Flags.lean ====
section
/-! DEFINITION. The conditions the rules compute: the fields of CFG (R39), the phase of a sequencer state (R30), the
state and error codes, the sink's answers (R24, R25), the threshold (R131), the length precondition (R101), and the
verdict table with `cmd_ready` (R171). -/

namespace Sys2Proof.Machine

/-- CFG.SRC (R39): false is mapper mode, true is stream mode. -/
def State.cfgSrc (s : State) : Bool := s.cfg.getLsbD 0
/-- CFG.TAIL (R39): false is DROP, true is PAD. -/
def State.cfgTail (s : State) : Bool := s.cfg.getLsbD 1
/-- CFG.MAPLIT (R39): false is the rotation mapping, true the literal mapping. -/
def State.cfgMaplit (s : State) : Bool := s.cfg.getLsbD 2

/-- b = 1 − CFG.MAPLIT (R103). -/
def State.offsetB (s : State) : Nat := if s.cfgMaplit then 0 else 1

/-- The columns of the verdict table (R171). -/
inductive Phase where
  | idle | busy | error
deriving DecidableEq, Repr

/-- The busy states are codes 1 to 9 (R30). -/
def SeqState.phase : SeqState → Phase
  | .idle => .idle
  | .pre => .busy
  | .preFl => .busy
  | .run => .busy
  | .fetch => .busy
  | .emit => .busy
  | .pad => .busy
  | .blkFl => .busy
  | .pause => .busy
  | .endFl => .busy
  | .error => .error

/-- STATE is a busy state: `busy_o` and STATUS.BUSY (R29, R46). -/
def State.busy (s : State) : Bool := decide (s.state.phase = .busy)

/-- A mapper-mode frame is running (R69). -/
def State.mapperFrame (s : State) : Bool := s.busy && !s.cfgSrc

/-- The STATE codes of R30. -/
def SeqState.code : SeqState → BitVec 4
  | .idle => 0
  | .pre => 1
  | .preFl => 2
  | .run => 3
  | .fetch => 4
  | .emit => 5
  | .pad => 6
  | .blkFl => 7
  | .pause => 8
  | .endFl => 9
  | .error => 15

/-- The error codes of R201. -/
def ErrCode.code : ErrCode → BitVec 4
  | .noError => 0
  | .precond => 1
  | .txIo => 2
  | .flushIo => 3
  | .illegalCmd => 4
  | .cmdState => 5

/-- The answer of the sink to a byte offer or a flush request in one cycle (R24, R25). -/
inductive Answer where
  | ok | fail | wait
deriving DecidableEq, Repr

/-- R24: `tx_err` = 1 is a fail whatever `tx_ready` is; otherwise `tx_ready` = 1 is ok; otherwise the write waits. -/
def CycleInput.writeAnswer (p : CycleInput) : Answer :=
  if p.txErr then .fail else if p.txReady then .ok else .wait

/-- R25: `fl_err` = 1 is a fail; otherwise `fl_done` = 1 is ok; otherwise the flush waits. -/
def CycleInput.flushAnswer (p : CycleInput) : Answer :=
  if p.flErr then .fail else if p.flDone then .ok else .wait

/-- `tx_valid` is driven in PRE, EMIT and PAD "and in no other state" (R24). -/
def SeqState.offersByte : SeqState → Bool
  | .idle => false
  | .pre => true
  | .preFl => false
  | .run => false
  | .fetch => false
  | .emit => true
  | .pad => true
  | .blkFl => false
  | .pause => false
  | .endFl => false
  | .error => false

/-- `fl_req` is driven in PRE_FL, BLK_FL and END_FL "and in no other state" (R25). -/
def SeqState.requestsFlush : SeqState → Bool
  | .idle => false
  | .pre => false
  | .preFl => true
  | .run => false
  | .fetch => false
  | .emit => false
  | .pad => false
  | .blkFl => true
  | .pause => false
  | .endFl => true
  | .error => false

/-- R131: a sample gives bit 1 iff it is greater than 127, unsigned. -/
def threshold (s : Byte) : Bool := decide (Config.thresh < s)

/-- R101: `pre_ok` is 1 iff LEN = WIDTH × HEIGHT, the product exact. -/
def State.preOk (s : State) : Bool := decide (s.len.toNat = s.width.toNat * s.height.toNat)

/-- The verdicts of R170. -/
inductive Verdict where
  | act | error (c : ErrCode) | ignore | stall
deriving DecidableEq, Repr

/-- SAMPLE and END in a busy state (R171): an error in mapper mode, an action in RUN, a stall elsewhere. -/
def inputVerdict (st : SeqState) (stream : Bool) : Verdict :=
  if !stream then .error .cmdState else if st = .run then .act else .stall

/-- The verdict table of R171, from the opcode, STATE at the start of the cycle and CFG.SRC. -/
def verdict (op : Opcode) (st : SeqState) (stream : Bool) : Verdict :=
  match op, st.phase with
  | .nop, _ => .act
  | .setw, .idle | .seth, .idle | .setlen, .idle | .setcfg, .idle | .start, .idle => .act
  | .setw, .busy | .seth, .busy | .setlen, .busy | .setcfg, .busy | .start, .busy => .error .cmdState
  | .setw, .error | .seth, .error | .setlen, .error | .setcfg, .error | .start, .error => .ignore
  | .sample, .idle | .endInput, .idle => .error .cmdState
  | .sample, .busy | .endInput, .busy => inputVerdict st stream
  | .sample, .error | .endInput, .error => .ignore
  | .clear, .idle => .act
  | .clear, .busy => .ignore
  | .clear, .error => .act
  | .reserved, .idle => .error .illegalCmd
  | .reserved, .busy => .error .illegalCmd
  | .reserved, .error => .ignore

/-- `cmd_ready` with `rst` = 0: every verdict but a stall consumes the word (R170, R171). -/
def cmdReady (op : Opcode) (st : SeqState) (stream : Bool) : Bool := decide (verdict op st stream ≠ .stall)

end Sys2Proof.Machine
end

