-- ==== Sys2Proof/Machine/Operands.lean ====
section
/-! DEFINITION. Operand assembly (R82): every operand is unsigned and zero-extended, from the low bits of ARG. -/

namespace Sys2Proof.Machine

/-- The low `n` bits of a number, in a register of at most `w` bits: how a register whose width is a parameter takes a
value (R11: arithmetic is modulo 2^width of the destination). -/
def lowBits (w n v : Nat) : BitVec w := BitVec.ofNat w (v % 2 ^ n)

/-- The operand of SETW and SETH: `ARG[DIM_BITS-1:0]` (R82). -/
def dimOperand (p : Params) (arg : Arg) : BitVec 14 := lowBits 14 p.dimBits arg.toNat

/-- The operand of SETLEN: `ARG[ADDR_BITS-1:0]` (R82). -/
def lenOperand (p : Params) (arg : Arg) : BitVec 28 := lowBits 28 p.addrBits arg.toNat

/-- A cursor value in its `DIM_BITS` + 1 bits (R41). -/
def cursorValue (p : Params) (v : Nat) : BitVec 15 := lowBits 15 (p.dimBits + 1) v

/-- `i[ADDR_BITS-1:0]`, a sample-memory address (R106). -/
def addrValue (p : Params) (v : Nat) : BitVec 28 := lowBits 28 p.addrBits v

end Sys2Proof.Machine
end

