-- ==== Sys2Proof/Machine/Ops.lean ====
section
/-! DEFINITION. The named operations over the sample memory and the registers: reading and writing a byte, the host's
writes (R61, R69), the current cycle's pins, appending to the trace (R13), `raise Error` (R205) and the return from it
by CLEAR (R180) or reset (R230), and the clearing START does (R177). -/

namespace Sys2Proof.Machine

/-! The sample memory. -/

/-- The byte written at an address, if the host has written one. -/
def Memory.read : List Host.Cell → Nat → Option Byte
  | [], _ => none
  | (k, v) :: m, a => if a = k then some v else Memory.read m a

/-- Writing one byte, keeping the addresses strictly rising. -/
def Memory.write : List Host.Cell → Nat → Byte → List Host.Cell
  | [], a, b => [(a, b)]
  | (k, v) :: m, a, b =>
    if a < k then (a, b) :: (k, v) :: m
    else if a = k then (a, b) :: m
    else (k, v) :: Memory.write m a b

/-- The canonical form: the addresses of the list rise strictly. An unlisted address holds no written byte, and a
listed one always does, so no entry equals what an unlisted address holds. -/
def Memory.wf : List Host.Cell → Bool
  | [] => true
  | [_] => true
  | (k, _) :: (k', v') :: m => decide (k < k') && Memory.wf ((k', v') :: m)

/-- Adding an address to a strictly rising list of addresses. -/
def AddrSet.insert : List Nat → Nat → List Nat
  | [], a => [a]
  | k :: m, a => if a < k then a :: k :: m else if a = k then k :: m else k :: AddrSet.insert m a

/-- Removing an address from a list of addresses. -/
def AddrSet.erase (m : List Nat) (a : Nat) : List Nat := m.filter (fun k => decide (k ≠ a))

/-- The canonical form of a list of addresses: strictly rising. -/
def AddrSet.wf : List Nat → Bool
  | [] => true
  | [_] => true
  | k :: k' :: m => decide (k < k') && AddrSet.wf (k' :: m)

/-- The byte M[a] of a memory nobody writes: what the host wrote, or a free value where it wrote nothing (R61). -/
def byteAt (mem : List Host.Cell) (a : Nat) : Byte := (Memory.read mem a).getD (Config.unwrittenByte a)

/-- The address is one the host wrote during the running mapper-mode frame, so that its reads are draws (R69). -/
def State.isUnstable (s : State) (a : Nat) : Bool := s.unstable.contains a

/-- `mem_rdata` in FETCH (R62): M[a] for the address of the read in flight, or a draw where R69 says so. -/
def State.memRdata (s : State) : Byte :=
  if s.isUnstable s.readAddr.toNat then Config.drawByte s.draws else byteAt s.mem s.readAddr.toNat

/-- The draw counter after a read of the address in flight. -/
def State.drawsAfterRead (s : State) : Nat := if s.isUnstable s.readAddr.toNat then s.draws + 1 else s.draws

/-- A host write of an address below LEN while a mapper-mode frame runs (R69). -/
def State.breaksStability (s : State) (a : Nat) : Bool := s.mapperFrame && decide (a < s.len.toNat)

/-- One byte write of the host through its own memory port (R61). A write that R69 forbids makes the address unstable;
any other write makes it stable again (log entry 4). -/
def hostWrite (s : State) (c : Host.Cell) : State :=
  { s with
    mem := Memory.write s.mem c.1 c.2
    unstable := if s.breaksStability c.1 then AddrSet.insert s.unstable c.1 else AddrSet.erase s.unstable c.1 }

/-- The host's writes of one cycle, in order. -/
def hostWrites : State → List Host.Cell → State
  | s, [] => s
  | s, c :: cs => hostWrites (hostWrite s c) cs

/-- Every write lies in the `ADDR_BITS`-bit address space (R60). -/
def writesInRange (p : Params) (cs : List Host.Cell) : Bool := cs.all fun c => decide (c.1 < 2 ^ p.addrBits)

/-! The pins of the cycle. -/

/-- The pins of the current cycle; quiet when the host's list has run out (log entry 7). -/
def State.pins (s : State) : CycleInput := s.inputs.headD {}

/-- The end of a cycle: the next cycle's pins come up. -/
def endCycle (s : State) : State := { s with inputs := s.inputs.tail }

/-! The registers. -/

/-- `emit(e)` (R13): append an event to the frame trace. -/
def emitEvent (e : Event) (s : State) : State := { s with trace := s.trace ++ [e] }

/-- `raise Error(code)` (R205). `start` is STATE at the start of the cycle; every other register keeps its value,
including one the state's own action wrote in the same cycle. -/
def raiseError (code : ErrCode) (start : SeqState) (s : State) : State :=
  { s with err := code, errState := start, done := false, state := .error }

/-- What CLEAR writes (R180): the return from ERROR, and in IDLE the clearing of DONE and the datapath registers. -/
def clearRegisters (s : State) : State :=
  { s with
    err := .noError, errState := .idle, done := false
    acc := 0, bitCnt := 0, byteCnt := 0, preCnt := 0, eoi := false
    curX := 0, curY := 0, pauseCnt := 0
    state := .idle }

/-- The frame registers START clears (R177), and with them the trace and the sample list of the new frame. -/
def clearFrame (s : State) : State :=
  { s with
    acc := 0, bitCnt := 0, byteCnt := 0, preCnt := 0, eoi := false, done := false
    curX := 0, curY := 0, pauseCnt := 0
    samples := 0, txBytes := 0, blocks := 0, tailBits := 0, tailEmit := false
    trace := [], taken := [] }

/-- A clock edge with `rst` = 1 (R230): every register takes its reset value of R49, whatever STATE it was in. The
sample memory is "unchanged by reset". -/
def resetRegisters (s : State) : State :=
  { s with
    state := .idle, acc := 0, bitCnt := 0, byteCnt := 0, preCnt := 0, eoi := false, done := false
    err := .noError, errState := .idle, width := 64, height := 64, len := 4096, cfg := 0
    curX := 0, curY := 0, pauseCnt := 0, samples := 0, txBytes := 0, blocks := 0
    tailBits := 0, tailEmit := false, everReset := true
    trace := [], taken := [] }

end Sys2Proof.Machine
end

