-- ==== Sys2Proof/Machine/Mapper.lean ====
section
/-! DEFINITION. The mapper (R100 to R113): the index function, the cursor advance, the termination test and the read. -/

namespace Sys2Proof.Machine

/-- The index function of R103 in exact integers: x·W + H − b − y. -/
def mapIndex (W H b x y : Nat) : Int := (x : Int) * W + H - b - y

/-- The cursor advance of R107: the wrap is at HEIGHT. -/
def advance (H x y : Nat) : Nat × Nat := if x + 1 = H then (0, y + 1) else (x + 1, y)

/-- idx(CUR_X, CUR_Y) with the frame's configuration (R103). -/
def State.index (s : State) : Int :=
  mapIndex s.width.toNat s.height.toNat s.offsetB s.curX.toNat s.curY.toNat

/-- The in-bounds test of R105, exact: 0 ≤ i < LEN. -/
def State.indexInBounds (s : State) : Bool := decide (0 ≤ s.index ∧ s.index < s.len.toNat)

/-- The mapper step for an in-bounds index (R106): issue the read and advance the cursor, in one RUN cycle. -/
def mapperStep (s : State) : State :=
  let next := advance s.height.toNat s.curX.toNat s.curY.toNat
  { s with
    readAddr := addrValue s.params s.index.toNat
    curX := cursorValue s.params next.1
    curY := cursorValue s.params next.2
    state := .fetch }

end Sys2Proof.Machine
end

