-- ==== Sys2Proof/Machine/Packer.lean ====
section
/-! DEFINITION. The packer and the sequencer's own actions at cycle level (R131 to R133, R150 to R164). -/

namespace Sys2Proof.Machine

/-- The accumulator with one more threshold bit: ACC | (zext_8(threshold(s)) << BITCNT[2:0]) (R132). -/
def packBit (acc : Byte) (bitCnt : BitVec 4) (b : Byte) : Byte :=
  acc ||| ((if threshold b then 1 else 0 : Byte) <<< (bitCnt.toNat % 8))

/-- The pack step `accept_sample(s)` (R132). -/
def acceptSample (b : Byte) (s : State) : State :=
  { s with
    acc := packBit s.acc s.bitCnt b
    samples := s.samples + 1
    taken := s.taken ++ [b]
    bitCnt := if s.bitCnt = 7 then 8 else s.bitCnt + 1
    state := if s.bitCnt = 7 then .emit else .run }

/-- `end_of_input()` (R157, carrying R141 to R143). -/
def endOfInput (s : State) : State :=
  if s.cfgTail && decide (s.bitCnt ≠ 0) then
    { s with eoi := true, tailBits := s.bitCnt &&& 7, tailEmit := true, state := .emit }
  else
    { s with eoi := true, tailBits := s.bitCnt &&& 7, tailEmit := false, acc := 0, bitCnt := 0, state := .endFl }

/-- Where the sequencer goes when a byte or a pause is done: on to the next sample, or to the trailing flush once input
has ended (R136, R140, R158, R161). -/
def State.resume (s : State) : SeqState := if s.eoi then .endFl else .run

/-- PRE (R152), the sink's answer not being a fail. -/
def stepPre (s : State) : State :=
  match s.pins.writeAnswer with
  | .ok =>
    emitEvent (.byte Config.preByte)
      { s with
        txBytes := s.txBytes + 1
        preCnt := s.preCnt + 1
        state := if s.preCnt = 10 then .preFl else .pre }
  | .fail => s
  | .wait => s

/-- PRE_FL (R153). -/
def stepPreFl (s : State) : State :=
  match s.pins.flushAnswer with
  | .ok => emitEvent .flush { s with state := .run }
  | .fail => s
  | .wait => s

/-- RUN: the mapper step or the end of input in mapper mode (R154); nothing in stream mode (R155). -/
def stepRun (s : State) : State :=
  if s.cfgSrc then s
  else if s.indexInBounds then mapperStep s
  else endOfInput s

/-- FETCH (R156): the sample the memory returns enters the packer. -/
def stepFetch (s : State) : State := acceptSample s.memRdata { s with draws := s.drawsAfterRead }

/-- EMIT (R158). -/
def stepEmit (s : State) : State :=
  match s.pins.writeAnswer with
  | .ok =>
    emitEvent (.byte s.acc)
      { s with
        txBytes := s.txBytes + 1
        acc := 0
        bitCnt := 0
        byteCnt := if s.byteCnt = 7 then 8 else s.byteCnt + 1
        state := if s.byteCnt = 7 then .pad else s.resume }
  | .fail => s
  | .wait => s

/-- PAD (R159). -/
def stepPad (s : State) : State :=
  match s.pins.writeAnswer with
  | .ok => emitEvent (.byte Config.padByte) { s with txBytes := s.txBytes + 1, byteCnt := 0, state := .blkFl }
  | .fail => s
  | .wait => s

/-- BLK_FL (R160). -/
def stepBlkFl (s : State) : State :=
  match s.pins.flushAnswer with
  | .ok => emitEvent .flush { s with blocks := s.blocks + 1, pauseCnt := s.params.pauseCycles, state := .pause }
  | .fail => s
  | .wait => s

/-- PAUSE (R161): count down; on the last cycle the Pause event completes and the sequencer resumes. -/
def stepPause (s : State) : State :=
  if s.pauseCnt = 1 then emitEvent .pause { s with pauseCnt := s.pauseCnt - 1, state := s.resume }
  else { s with pauseCnt := s.pauseCnt - 1 }

/-- END_FL (R162). -/
def stepEndFl (s : State) : State :=
  match s.pins.flushAnswer with
  | .ok => emitEvent .flush { s with done := true, state := .idle }
  | .fail => s
  | .wait => s

/-- The error the state's own action raises in this cycle: a failed byte write or a failed flush (R203). -/
def ownError (s : State) : Option ErrCode :=
  if s.state.offersByte && decide (s.pins.writeAnswer = .fail) then some .txIo
  else if s.state.requestsFlush && decide (s.pins.flushAnswer = .fail) then some .flushIo
  else none

/-- The state's own action when it raises nothing (R151 to R162, R164). IDLE and ERROR have none. -/
def ownStep (s : State) : State :=
  match s.state with
  | .idle => s
  | .pre => stepPre s
  | .preFl => stepPreFl s
  | .run => stepRun s
  | .fetch => stepFetch s
  | .emit => stepEmit s
  | .pad => stepPad s
  | .blkFl => stepBlkFl s
  | .pause => stepPause s
  | .endFl => stepEndFl s
  | .error => s

/-- One cycle with `rst` = 0 in which no command takes effect: the own action alone (R150). -/
def ownCycle (s : State) : State :=
  match ownError s with
  | some c => raiseError c s.state s
  | none => ownStep s

/-- One cycle with `rst` = 0 in which a command is offered (R150, R170, R208): the state's own action, then the
command's verdict. An own error wins, and the command then has no effect. A command error keeps the own action's
register writes, except STATE. `act` is the command's pseudocode; under a stall the word is not consumed. -/
def commandCycle (op : Opcode) (act : State → State) (s : State) : State :=
  match ownError s with
  | some c => raiseError c s.state s
  | none =>
    match verdict op s.state s.cfgSrc with
    | .act => act (ownStep s)
    | .error c => raiseError c s.state (ownStep s)
    | .ignore => ownStep s
    | .stall => ownStep s

end Sys2Proof.Machine
end

