-- ==== Sys2Proof/Machine/ConfigCommands.lean ====
section
/-! DEFINITION. The meanings of NOP and of the configuration commands SETW, SETH, SETLEN and SETCFG (R172 to R176). A
meaning is the clock cycle (`rst` = 0) in which the command stands on the command port. -/

namespace Sys2Proof.Machine

/-- NOP (R172): acts in every state and changes nothing. -/
def execNop (s : State) : Host.Outcome State Fault Refusal :=
  .next (commandCycle .nop (fun t => t) s)

/-- SETW (R173): `WIDTH <- ARG[DIM_BITS-1:0]`. -/
def execSetw (arg : Arg) (s : State) : Host.Outcome State Fault Refusal :=
  .next (commandCycle .setw (fun t => { t with width := dimOperand t.params arg }) s)

/-- SETH (R174): `HEIGHT <- ARG[DIM_BITS-1:0]`. -/
def execSeth (arg : Arg) (s : State) : Host.Outcome State Fault Refusal :=
  .next (commandCycle .seth (fun t => { t with height := dimOperand t.params arg }) s)

/-- SETLEN (R175): `LEN <- ARG[ADDR_BITS-1:0]`. -/
def execSetlen (arg : Arg) (s : State) : Host.Outcome State Fault Refusal :=
  .next (commandCycle .setlen (fun t => { t with len := lenOperand t.params arg }) s)

/-- SETCFG (R176): `CFG <- ARG[2:0]`. -/
def execSetcfg (cfg : BitVec 3) (s : State) : Host.Outcome State Fault Refusal :=
  .next (commandCycle .setcfg (fun t => { t with cfg := cfg }) s)

end Sys2Proof.Machine
end

