-- ==== Sys2Proof/Machine/ControlCommands.lean ====
section
/-! DEFINITION. The meanings of CLEAR (R180) and of the seven reserved opcodes (R181). A reserved word raises
ILLEGAL_CMD in IDLE and in the busy states and is ignored in ERROR, whatever its ARG (R85). -/

namespace Sys2Proof.Machine

/-- CLEAR (R180): acts in IDLE and ERROR, is ignored when busy. -/
def execClear (s : State) : Host.Outcome State Fault Refusal :=
  .next (commandCycle .clear clearRegisters s)

/-- The cycle of a reserved word (R181): its verdict is an error or an ignore, so it has no pseudocode of its own. -/
def reservedCycle (s : State) : Host.Outcome State Fault Refusal :=
  .next (commandCycle .reserved (fun t => t) s)

/-- Reserved opcode 0x9 (R181). -/
def execReserved9 (s : State) : Host.Outcome State Fault Refusal := reservedCycle s
/-- Reserved opcode 0xA (R181). -/
def execReservedA (s : State) : Host.Outcome State Fault Refusal := reservedCycle s
/-- Reserved opcode 0xB (R181). -/
def execReservedB (s : State) : Host.Outcome State Fault Refusal := reservedCycle s
/-- Reserved opcode 0xC (R181). -/
def execReservedC (s : State) : Host.Outcome State Fault Refusal := reservedCycle s
/-- Reserved opcode 0xD (R181). -/
def execReservedD (s : State) : Host.Outcome State Fault Refusal := reservedCycle s
/-- Reserved opcode 0xE (R181). -/
def execReservedE (s : State) : Host.Outcome State Fault Refusal := reservedCycle s
/-- Reserved opcode 0xF (R181). -/
def execReservedF (s : State) : Host.Outcome State Fault Refusal := reservedCycle s

end Sys2Proof.Machine
end

