-- ==== Sys2Proof/Machine/FrameCommands.lean ====
section
/-! DEFINITION. The meanings of START, SAMPLE and END (R177 to R179). -/

namespace Sys2Proof.Machine

/-- The pseudocode of START (R177): clear the frame registers; then, in mapper mode with LEN ≠ WIDTH × HEIGHT, raise
PRECOND, else enter PRE. START acts in IDLE only, so STATE at the start of the cycle is the state's own (R202). -/
def startFrame (s : State) : State :=
  if !s.cfgSrc && !s.preOk then raiseError .precond s.state (clearFrame s)
  else { clearFrame s with state := .pre }

/-- START (R177). -/
def execStart (s : State) : Host.Outcome State Fault Refusal :=
  .next (commandCycle .start startFrame s)

/-- SAMPLE (R178): `accept_sample(ARG[7:0])` in RUN in stream mode. -/
def execSample (value : Byte) (s : State) : Host.Outcome State Fault Refusal :=
  .next (commandCycle .sample (acceptSample value) s)

/-- END (R179): `end_of_input()` in RUN in stream mode. -/
def execEndInput (s : State) : Host.Outcome State Fault Refusal :=
  .next (commandCycle .endInput endOfInput s)

end Sys2Proof.Machine
end

