-- ==== Sys2Proof/Machine/Dispatch.lean ====
section
/-! DEFINITION. One arm per command of the opcode table. -/

namespace Sys2Proof.Machine

/-- The clock cycle, with `rst` = 0, in which the command `i` stands on the command port. -/
def exec (i : Instr) (s : State) : Host.Outcome State Fault Refusal :=
  match i with
  | .nop => Sys2Proof.Machine.execNop s
  | .setw arg => Sys2Proof.Machine.execSetw arg s
  | .seth arg => Sys2Proof.Machine.execSeth arg s
  | .setlen arg => Sys2Proof.Machine.execSetlen arg s
  | .setcfg cfg => Sys2Proof.Machine.execSetcfg cfg s
  | .start => Sys2Proof.Machine.execStart s
  | .sample value => Sys2Proof.Machine.execSample value s
  | .endInput => Sys2Proof.Machine.execEndInput s
  | .clear => Sys2Proof.Machine.execClear s
  | .reserved9 => Sys2Proof.Machine.execReserved9 s
  | .reservedA => Sys2Proof.Machine.execReservedA s
  | .reservedB => Sys2Proof.Machine.execReservedB s
  | .reservedC => Sys2Proof.Machine.execReservedC s
  | .reservedD => Sys2Proof.Machine.execReservedD s
  | .reservedE => Sys2Proof.Machine.execReservedE s
  | .reservedF => Sys2Proof.Machine.execReservedF s

end Sys2Proof.Machine
end

