-- ==== Sys2Proof/Machine/Clock.lean ====
section
/-! DEFINITION. One rising edge of `clk` (R150, R230, R233): the host's memory writes of the cycle, then reset, or the
command on the port, or the state's own action alone. -/

namespace Sys2Proof.Machine

/-- An outcome whose next state is passed through `f`; a fault or a refusal stays as it is. -/
def mapNext (f : State → State) : Host.Outcome State Fault Refusal → Host.Outcome State Fault Refusal
  | .next s => .next (f s)
  | .fault r => .fault r
  | .refused r => .refused r

/-- The cycle proper, after the host's memory writes: `rst` first, then the command on the port, else the own action
(R150, R208). -/
def cycleBody (p : CycleInput) (s : State) : Host.Outcome State Fault Refusal :=
  if p.rst then .next (resetRegisters s)
  else if p.cmdValid then exec (decode p.cmdWord) s
  else .next (ownCycle s)

/-- One clock edge. Before the first reset edge only a cycle with `rst` = 1 has a meaning (R233). A host write outside
the address space is a fault. -/
def clockEdge (s : State) : Host.Outcome State Fault Refusal :=
  if !s.everReset && !s.pins.rst then .refused .neverReset
  else if !writesInRange s.params s.pins.memWrites then .fault .hostWriteOutsideMemory
  else mapNext endCycle (cycleBody s.pins (hostWrites s s.pins.memWrites))

/-- The pins of a cycle in which the host offers a command word, the sink's answers and the readback number being as
they were: no reset, no write of the sample memory. -/
def offerWord (p : CycleInput) (nbits w : Nat) : CycleInput :=
  { p with rst := false, cmdValid := true, cmdWord := BitVec.ofNat 32 (w % 2 ^ nbits), memWrites := [] }

end Sys2Proof.Machine
end

