-- ==== Sys2Proof/Machine/Step.lean ====
section
/-! DEFINITION. The step: one clock cycle. -/

namespace Sys2Proof.Machine

/-- One clock cycle of the FHP (R150). -/
def step (s : State) : Host.Outcome State Fault Refusal := clockEdge s

/-- The state in which the host offers the word on the command port in the coming cycle (R26): the FHP fetches nothing
(R22), so a command comes to run by being offered (log entry 8). -/
def State.withFetchWord (s : State) (nbits w : Nat) : State :=
  { s with everReset := true, inputs := offerWord s.pins nbits w :: s.inputs.tail }

end Sys2Proof.Machine
end

