-- ==== Sys2Proof/WellFormed.lean ====
section
/-! DEFINITION. What an assembler lets through (R90): an operand that fits its field at the build's parameters, and no
reserved opcode. The hardware takes every word (R84, R87), so no meaning depends on this check; the assembler and the
encoding statements do. -/

namespace Sys2Proof

/-- R90: "an operand wider than its field" is refused, and a reserved opcode can only be written as a raw word. The
operands of SETCFG and SAMPLE have their field's width by type. -/
def Instr.wellFormed (p : Params) : Instr → Bool
  | .nop => true
  | .setw arg => decide (arg.toNat < 2 ^ p.dimBits)
  | .seth arg => decide (arg.toNat < 2 ^ p.dimBits)
  | .setlen arg => decide (arg.toNat < 2 ^ p.addrBits)
  | .setcfg _ => true
  | .start => true
  | .sample _ => true
  | .endInput => true
  | .clear => true
  | .reserved9 => false
  | .reservedA => false
  | .reservedB => false
  | .reservedC => false
  | .reservedD => false
  | .reservedE => false
  | .reservedF => false

end Sys2Proof
end

