-- ==== Sys2Proof/Machine/Assembler.lean ====
section
/-! DEFINITION. The assembly language of R88 to R90: the text of one command or pseudo-instruction per line, its words,
and what the assembler refuses. The text is a list of characters. -/

namespace Sys2Proof

/-- One assembly line after parsing: the nine commands, the pseudo-instructions of R89 and the directive `.word`. -/
inductive AsmOp where
  | nop
  | setw (n : Nat)
  | seth (n : Nat)
  | setlen (n : Nat)
  | setcfg (n : Nat)
  | start
  | sample (n : Nat)
  | endInput
  | clear
  /-- `.word 0xHHHHHHHH` (R90). -/
  | word (w : Word)
  /-- `CONFIG w, h` (R89). -/
  | config (w h : Nat)
  /-- `SAMPLES v, n` (R89). -/
  | samples (v n : Nat)
  /-- `PIXELS v0, ..., vk` (R89). -/
  | pixels (vs : List Nat)
  /-- `STREAMFRAME v0, ..., vk` (R89). -/
  | streamFrame (vs : List Nat)
deriving DecidableEq, Repr

namespace Machine

/-- The word of a command whose operand must be below a bound, refused otherwise (R90). -/
def fitWord (bound n : Nat) (i : Instr) : Option (List Word) := if n < bound then some [encode i] else none

/-- The SAMPLE words of a list of values, each refused above 255 (R89, R90). -/
def sampleWords : List Nat → Option (List Word)
  | [] => some []
  | v :: vs =>
    match fitWord 256 v (.sample (BitVec.ofNat 8 v)), sampleWords vs with
    | some w, some ws => some (w ++ ws)
    | _, _ => none

/-- The SETW, SETH or SETLEN word of a value (R88, R90). -/
def dimWord (p : Params) (i : Arg → Instr) (n : Nat) : Option (List Word) :=
  fitWord (2 ^ p.dimBits) n (i (BitVec.ofNat 28 n))

/-- The SETLEN word of a value (R88, R90). -/
def lenWord (p : Params) (n : Nat) : Option (List Word) :=
  fitWord (2 ^ p.addrBits) n (.setlen (BitVec.ofNat 28 n))

/-- Two expansions in a row; refused if either is. -/
def andThen (a b : Option (List Word)) : Option (List Word) :=
  match a, b with
  | some x, some y => some (x ++ y)
  | _, _ => none

/-- The words of one line (R88, R89), or none where the assembler refuses it (R90). -/
def assembleOp (p : Params) : AsmOp → Option (List Word)
  | .nop => some [encode .nop]
  | .setw n => dimWord p .setw n
  | .seth n => dimWord p .seth n
  | .setlen n => lenWord p n
  | .setcfg n => fitWord 8 n (.setcfg (BitVec.ofNat 3 n))
  | .start => some [encode .start]
  | .sample n => sampleWords [n]
  | .endInput => some [encode .endInput]
  | .clear => some [encode .clear]
  | .word w => some [w]
  | .config w h => andThen (dimWord p .setw w) (andThen (dimWord p .seth h) (lenWord p (w * h)))
  | .samples v n => sampleWords (List.replicate n v)
  | .pixels vs => sampleWords vs
  | .streamFrame vs => andThen (some [encode .start]) (andThen (sampleWords vs) (some [encode .endInput]))

/-! The text. -/

/-- A text, or a piece of one. -/
abbrev Chars := List Char

/-- A space or a tab. -/
def isBlank (c : Char) : Bool := c.toNat == 32 || c.toNat == 9

/-- A letter in upper case: "mnemonics are case-insensitive" (R88). -/
def upperChar (c : Char) : Char := if 97 ≤ c.toNat ∧ c.toNat ≤ 122 then Char.ofNat (c.toNat - 32) else c

/-- A character of a label's name: a letter, a digit or an underscore. -/
def isNameChar (c : Char) : Bool :=
  (97 ≤ c.toNat && c.toNat ≤ 122) || (65 ≤ c.toNat && c.toNat ≤ 90) || (48 ≤ c.toNat && c.toNat ≤ 57) || c.toNat == 95

/-- A `;` starts a comment that runs to the end of the line (R88). -/
def dropComment (l : Chars) : Chars := l.takeWhile (fun c => c != ';')

/-- The text without blanks at its two ends. -/
def trim (l : Chars) : Chars := ((l.dropWhile isBlank).reverse.dropWhile isBlank).reverse

/-- A label is `name:` at the start of a line; it has no use and is dropped (R88). -/
def dropLabel (l : Chars) : Chars :=
  match l.takeWhile isNameChar, l.dropWhile isNameChar with
  | _ :: _, ':' :: r => r
  | _, _ => l

/-- The pieces of a text between commas. -/
def splitCommas : Chars → List Chars
  | [] => [[]]
  | c :: cs =>
    if c == ',' then [] :: splitCommas cs
    else
      match splitCommas cs with
      | [] => [[c]]
      | w :: ws => (c :: w) :: ws

/-- The value of a digit in a base. -/
def digitValue (base : Nat) (c : Char) : Option Nat :=
  let v :=
    if 48 ≤ c.toNat ∧ c.toNat ≤ 57 then c.toNat - 48
    else if 97 ≤ c.toNat ∧ c.toNat ≤ 102 then c.toNat - 87
    else if 65 ≤ c.toNat ∧ c.toNat ≤ 70 then c.toNat - 55
    else base
  if v < base then some v else none

/-- The number a list of digits writes, from the left. -/
def digitsValue (base : Nat) : Nat → Chars → Option Nat
  | acc, [] => some acc
  | acc, c :: cs =>
    match digitValue base c with
    | some v => digitsValue base (acc * base + v) cs
    | none => none

/-- One digit or more. -/
def parseDigits (base : Nat) (l : Chars) : Option Nat := if l.isEmpty then none else digitsValue base 0 l

/-- A numeric operand (R88): decimal, hexadecimal (`0x40`) or binary (`0b1000000`). -/
def parseNumber : Chars → Option Nat
  | '0' :: 'x' :: ds => parseDigits 16 ds
  | '0' :: 'b' :: ds => parseDigits 2 ds
  | ds => parseDigits 10 ds

/-- The operand of SAMPLE: a number or a character literal (R88). The value of a character is its Unicode code point,
which the operand check then refuses above 255, and three quotes in a row are the literal of the quote, 0x27: R88 gives
only the value of `'#'`, so both are the model's choice (log entry 16). -/
def parseSample : Chars → Option Nat
  | ['\'', c, '\''] => some c.toNat
  | l => parseNumber l

/-- The operand of `.word`: eight hexadecimal digits (R90). -/
def parseRawWord : Chars → Option Word
  | '0' :: 'x' :: ds => if ds.length = 8 then (parseDigits 16 ds).map (BitVec.ofNat 32) else none
  | _ => none

/-- Every piece parsed as a number; refused if one is not. -/
def parseNumbers : List Chars → Option (List Nat)
  | [] => some []
  | t :: ts =>
    match parseNumber (trim t), parseNumbers ts with
    | some n, some ns => some (n :: ns)
    | _, _ => none

/-- The bit of CFG a flag of SETCFG names, and the value it gives it (R88). -/
def flagBit (t : Chars) : Option (Nat × Nat) :=
  if t = ['S', 'T', 'R', 'E', 'A', 'M'] then some (0, 1)
  else if t = ['M', 'A', 'P', 'P', 'E', 'R'] then some (0, 0)
  else if t = ['P', 'A', 'D'] then some (1, 1)
  else if t = ['D', 'R', 'O', 'P'] then some (1, 0)
  else if t = ['L', 'I', 'T', 'E', 'R', 'A', 'L'] then some (2, 1)
  else if t = ['R', 'O', 'T', 'A', 'T', 'E'] then some (2, 0)
  else none

/-- The value of a list of flags, each bit named at most once; a bit not named takes its 0 value (R88). -/
def flagsValue : List Nat → List Chars → Option Nat
  | _, [] => some 0
  | named, t :: ts =>
    match flagBit (trim t) with
    | some (i, v) =>
      if named.contains i then none else (flagsValue (i :: named) ts).map (fun n => n + v * 2 ^ i)
    | none => none

/-- The operand of SETCFG: a number, or a comma-separated list of flags (R88). -/
def parseCfg (l : Chars) : Option Nat :=
  match parseNumber l with
  | some n => some n
  | none => flagsValue [] (splitCommas l)

/-- A command without an operand: an operand is refused (R90). -/
def noOperand (operand : Chars) (op : AsmOp) : Option AsmOp := if operand.isEmpty then some op else none

/-- A mnemonic, in upper case, with its operand text; an unknown mnemonic is refused (R90). -/
def parseOp (mnemonic operand : Chars) : Option AsmOp :=
  if mnemonic = ['N', 'O', 'P'] then noOperand operand .nop
  else if mnemonic = ['S', 'E', 'T', 'W'] then (parseNumber operand).map .setw
  else if mnemonic = ['S', 'E', 'T', 'H'] then (parseNumber operand).map .seth
  else if mnemonic = ['S', 'E', 'T', 'L', 'E', 'N'] then (parseNumber operand).map .setlen
  else if mnemonic = ['S', 'E', 'T', 'C', 'F', 'G'] then (parseCfg operand).map .setcfg
  else if mnemonic = ['S', 'T', 'A', 'R', 'T'] then noOperand operand .start
  else if mnemonic = ['S', 'A', 'M', 'P', 'L', 'E'] then (parseSample operand).map .sample
  else if mnemonic = ['E', 'N', 'D'] then noOperand operand .endInput
  else if mnemonic = ['C', 'L', 'E', 'A', 'R'] then noOperand operand .clear
  else if mnemonic = ['.', 'W', 'O', 'R', 'D'] then (parseRawWord operand).map .word
  else if mnemonic = ['P', 'I', 'X', 'E', 'L', 'S'] then (parseNumbers (splitCommas operand)).map .pixels
  else if mnemonic = ['S', 'T', 'R', 'E', 'A', 'M', 'F', 'R', 'A', 'M', 'E'] then
    (parseNumbers (splitCommas operand)).map .streamFrame
  else if mnemonic = ['C', 'O', 'N', 'F', 'I', 'G'] then
    match parseNumbers (splitCommas operand) with
    | some [w, h] => some (.config w h)
    | _ => none
  else if mnemonic = ['S', 'A', 'M', 'P', 'L', 'E', 'S'] then
    match parseNumbers (splitCommas operand) with
    | some [v, n] => some (.samples v n)
    | _ => none
  else none

/-- The words of one line of text (R88 to R90): an empty line has none. -/
def assembleLine (p : Params) (line : Chars) : Option (List Word) :=
  let text := trim (dropLabel (dropComment line))
  if text.isEmpty then some []
  else
    let mnemonic := (text.takeWhile (fun c => !isBlank c)).map upperChar
    match parseOp mnemonic (trim (text.dropWhile (fun c => !isBlank c))) with
    | some op => assembleOp p op
    | none => none

/-- The words of a program, line by line; refused if a line is. -/
def assemble (p : Params) : List Chars → Option (List Word)
  | [] => some []
  | l :: ls => andThen (assembleLine p l) (assemble p ls)

end Machine

end Sys2Proof
end

