-- ==== Sys2Proof/Machine/Frame.lean ====
section
/-! DEFINITION. The transaction level, which is normative beside the cycle level (R15): the frame function of R145 and
the mapper sequence of R108. The machine never calls them; the statements compare it with them. -/

namespace Sys2Proof.Machine

/-- The variables of R145's loop: the events so far, the accumulator, the bits in it, the payload bytes of the block. -/
structure PackState where
  ev : List Event
  acc : Byte
  k : Nat
  nb : Nat
deriving DecidableEq, Repr

/-- The start of R145: eleven preamble bytes and their flush. -/
def packStart : PackState where
  ev := List.replicate Config.preLen (.byte Config.preByte) ++ [.flush]
  acc := 0
  k := 0
  nb := 0

/-- The block work after the eighth payload byte (R137 to R139). -/
def packBlock (p : PackState) : PackState :=
  if p.nb = Config.blockBytes then { p with ev := p.ev ++ [.byte Config.padByte, .flush, .pause], nb := 0 } else p

/-- Emitting the accumulator as a payload byte (R136). -/
def packPayload (p : PackState) : PackState :=
  packBlock { ev := p.ev ++ [.byte p.acc], acc := 0, k := 0, nb := p.nb + 1 }

/-- The loop body of R145 for one sample. -/
def packSample (p : PackState) (s : Byte) : PackState :=
  let q : PackState := { p with acc := p.acc ||| ((if threshold s then 1 else 0 : Byte) <<< p.k), k := p.k + 1 }
  if q.k = Config.bitsPerByte then packPayload q else q

/-- R145's loop over the samples, from a given point. -/
def packFrom (p : PackState) (samples : List Byte) : PackState := samples.foldl packSample p

/-- R145's loop over all samples of a frame. -/
def packAll (samples : List Byte) : PackState := packFrom packStart samples

/-- The end of R145: the tail byte under PAD, then the trailing flush. -/
def packEnd (p : PackState) (pad : Bool) : List Event :=
  (if 0 < p.k ∧ pad = true then (packPayload p).ev else p.ev) ++ [.flush]

/-- `frame(samples, tail)` (R145); `pad` is CFG.TAIL. -/
def frame (samples : List Byte) (pad : Bool) : List Event := packEnd (packAll samples) pad

/-- Lane `i` of the samples (R149): the threshold bit of sample `i`, and 0 past the end of the list. -/
def laneBit (samples : List Byte) (i : Nat) : Bool :=
  match samples[i]? with
  | some s => threshold s
  | none => false

/-- Payload byte `j` as eight independent lanes (R149): bit i is the threshold bit of sample 8j + i. -/
def laneByte (samples : List Byte) (j : Nat) : Byte :=
  BitVec.ofNat 8 ((List.range 8).map fun i => (laneBit samples (8 * j + i)).toNat * 2 ^ i).sum

/-- The events of payload byte `j`: the byte, and after every eighth the block work (R136 to R139). -/
def payloadEvents (samples : List Byte) (j : Nat) : List Event :=
  .byte (laneByte samples j) ::
    (if (j + 1) % Config.blockBytes = 0 then [.byte Config.padByte, .flush, .pause] else [])

/-- R108's loop, with a bound on its iterations: the indices read from the cursor (x, y) on. -/
def mapperIdxFrom (W H L b : Nat) : Nat → Nat → Nat → List Nat
  | 0, _, _ => []
  | fuel + 1, x, y =>
    if 0 ≤ mapIndex W H b x y ∧ mapIndex W H b x y < L then
      (mapIndex W H b x y).toNat ::
        mapperIdxFrom W H L b fuel (advance H x y).1 (advance H x y).2
    else []

/-- A bound on the tests of R108's loop: at most H − b + 2 rows of at most H steps, and the last test. -/
def mapperFuel (H : Nat) : Nat := (H + 2) * (H + 1)

/-- `mapper_idx(W, H, L, b)` (R108). -/
def mapperIdx (W H L b : Nat) : List Nat := mapperIdxFrom W H L b (mapperFuel H) 0 0

/-- `mapper_seq(M, W, H, L, b)` (R108). -/
def mapperSeq (mem : List Host.Cell) (W H L b : Nat) : List Byte := (mapperIdx W H L b).map (byteAt mem)

/-- The mapper's index list of a frame with the state's configuration (R130). -/
def State.frameIdx (s : State) : List Nat :=
  mapperIdx s.width.toNat s.height.toNat s.len.toNat s.offsetB

/-- The `Byte` events of a trace, counted (R48). -/
def byteCount (ev : List Event) : Nat := ev.countP fun e => match e with
  | .byte _ => true
  | .flush => false
  | .pause => false

/-- The `Flush` events of a trace, counted (R146). -/
def flushCount (ev : List Event) : Nat := ev.count .flush

/-- The `Pause` events of a trace, counted (R146). -/
def pauseCount (ev : List Event) : Nat := ev.count .pause

/-- The number of payload bytes of a frame of `n` samples (R146): ⌊n/8⌋ under DROP, ⌈n/8⌉ under PAD. -/
def payloadBytes (n : Nat) (pad : Bool) : Nat := if pad then (n + 7) / 8 else n / 8

/-- The frame written out byte by byte, from its lanes and counts (R146, R147, R149). -/
def frameByLanes (samples : List Byte) (pad : Bool) : List Event :=
  List.replicate Config.preLen (.byte Config.preByte) ++ [.flush] ++
    (List.range (payloadBytes samples.length pad)).flatMap (payloadEvents samples) ++ [.flush]

end Sys2Proof.Machine
end

