-- ==== Sys2Proof/Machine/Outputs.lean ====
section
/-! DEFINITION. The output pins of a cycle (R23 to R29, R165) and the readback port (R27, R45, R46): functions of the
registers and of the inputs of the same cycle. Reading them changes nothing (R65, R74). -/

namespace Sys2Proof.Machine

/-- One bit as a field of a word. -/
def bit1 (b : Bool) : BitVec 1 := BitVec.ofBool b

/-- The STATUS word (R46), assembled from other registers; it has no storage of its own. -/
def State.status (s : State) : Word :=
  s.errState.code ++ s.tailBits ++ s.preCnt ++ s.byteCnt ++ s.bitCnt ++
    bit1 s.tailEmit ++ bit1 s.eoi ++ bit1 s.busy ++ bit1 s.done ++ s.err.code ++ s.state.code

/-- The readback map (R45): the register of each number, zero-extended to 32 bits; numbers 13 to 15 read 0. -/
def State.readback (s : State) (sel : BitVec 4) : Word :=
  match sel.toNat with
  | 0 => s.status
  | 1 => s.cfg.setWidth 32
  | 2 => s.width.setWidth 32
  | 3 => s.height.setWidth 32
  | 4 => s.len.setWidth 32
  | 5 => s.acc.setWidth 32
  | 6 => s.curX.setWidth 32
  | 7 => s.curY.setWidth 32
  | 8 => s.samples
  | 9 => s.txBytes
  | 10 => s.blocks
  | 11 => s.pauseCnt
  | 12 => Config.id
  | _ => 0

/-- The output pins of R23. -/
structure Outputs where
  cmdReady : Bool
  rdData : Word
  txValid : Bool
  txData : Byte
  flReq : Bool
  memEn : Bool
  memAddr : BitVec 28
  busyO : Bool
  doneO : Bool
  errO : Bool
deriving DecidableEq, Repr

/-- `tx_data` (R24): 0x23 in PRE, ACC in EMIT, 0x00 in PAD and, without a meaning, 0x00 elsewhere. -/
def State.txData (s : State) : Byte :=
  match s.state with
  | .idle => 0
  | .pre => Config.preByte
  | .preFl => 0
  | .run => 0
  | .fetch => 0
  | .emit => s.acc
  | .pad => Config.padByte
  | .blkFl => 0
  | .pause => 0
  | .endFl => 0
  | .error => 0

/-- A mapper read is issued in this cycle (R106, R165): RUN, mapper mode, index in bounds. -/
def State.issuesRead (s : State) : Bool := decide (s.state = .run) && !s.cfgSrc && s.indexInBounds

/-- The output pins of a cycle: R165, with what `rst` = 1 forces to 0 (R230, R49). -/
def outputsOf (s : State) (p : CycleInput) : Outputs where
  cmdReady := !p.rst && cmdReady (decode p.cmdWord).opcode s.state s.cfgSrc
  rdData := s.readback p.rdSel
  txValid := !p.rst && s.state.offersByte
  txData := s.txData
  flReq := !p.rst && s.state.requestsFlush
  memEn := !p.rst && s.issuesRead
  memAddr := if !p.rst && s.issuesRead then addrValue s.params s.index.toNat else 0
  busyO := s.busy
  doneO := s.done
  errO := decide (s.state = .error)

/-- The output pins of the current cycle. Before the first reset edge no output is to be trusted (R233): none. -/
def State.outputs (s : State) : Option Outputs := if s.everReset then some (outputsOf s s.pins) else none

/-- The word on the command port is consumed in this cycle (R26, R170). -/
def State.consumes (s : State) : Bool :=
  !s.pins.rst && s.pins.cmdValid && cmdReady (decode s.pins.cmdWord).opcode s.state s.cfgSrc

end Sys2Proof.Machine
end

