-- ==== Sys2Proof/Safety.lean ====
section
/-! DEFINITION. What holds of a machine that has been reset, in the terms the statements use: the register invariants
of R48 (as R205 leaves them in ERROR, log entry 9), the relation of the machine to the frame function (R163) and to the
mapper sequence (R108, R130), and the canonical form of the memory. -/

namespace Sys2Proof.Machine

/-- The registers of a parameter's width hold values of that width (R38, R41), at a legal build (R8). -/
abbrev WidthInv (s : State) : Prop :=
  s.params.Legal ∧ s.width.toNat < 2 ^ s.params.dimBits ∧ s.height.toNat < 2 ^ s.params.dimBits ∧
    s.len.toNat < 2 ^ s.params.addrBits ∧ s.curX.toNat < 2 ^ (s.params.dimBits + 1) ∧
    s.curY.toNat < 2 ^ (s.params.dimBits + 1)

/-- The accumulator and the position counters (R48 items 1 to 5). ERROR keeps what they held (R205). -/
abbrev CountInv (s : State) : Prop :=
  s.acc.toNat < 2 ^ s.bitCnt.toNat ∧ s.bitCnt ≤ 8 ∧ s.byteCnt ≤ 8 ∧ s.preCnt ≤ 11 ∧ s.tailBits ≤ 7 ∧
    (s.state ≠ .emit → s.state ≠ .error → s.bitCnt ≤ 7) ∧
    (s.state = .emit → 1 ≤ s.bitCnt ∧ (s.bitCnt = 8 ↔ s.eoi = false)) ∧
    (s.state ≠ .pad → s.state ≠ .error → s.byteCnt ≤ 7) ∧
    (s.state = .pad → s.byteCnt = 8) ∧
    (s.state = .pre → s.preCnt ≤ 10) ∧
    (s.busy = true → s.state ≠ .pre → s.preCnt = 11) ∧
    (s.state = .pause → s.pauseCnt ≠ 0) ∧
    (s.state ≠ .pause → s.state ≠ .error → s.pauseCnt = 0)

/-- Between emissions the datapath is empty where the rules leave it so: in PAD, BLK_FL, PAUSE and END_FL no bit is
pending, and in BLK_FL and PAUSE a block is complete (R157 to R160). -/
abbrev RestInv (s : State) : Prop :=
  ((s.state = .pad ∨ s.state = .blkFl ∨ s.state = .pause ∨ s.state = .endFl) → s.acc = 0 ∧ s.bitCnt = 0) ∧
    ((s.state = .blkFl ∨ s.state = .pause) → s.byteCnt = 0) ∧
    ((s.state = .pre ∨ s.state = .preFl) → s.acc = 0 ∧ s.bitCnt = 0 ∧ s.byteCnt = 0)

/-- The flags: EOI (R35, R48 item 6), DONE (R36), ERR and ERRSTATE (R37), and FETCH in mapper mode only (R156). -/
abbrev FlagInv (s : State) : Prop :=
  (s.state = .endFl → s.eoi = true) ∧
    ((s.state = .pre ∨ s.state = .preFl ∨ s.state = .run ∨ s.state = .fetch) → s.eoi = false) ∧
    (s.done = true → s.state = .idle) ∧
    (s.state = .error ↔ s.err ≠ .noError) ∧
    (s.state ≠ .error → s.errState = .idle) ∧
    (s.state = .fetch → s.cfgSrc = false)

/-- The cursor (R112, R48 item 7): its bounds while a mapper-mode frame runs, and its rest at (0, 0) before the first
mapper step and throughout a stream-mode frame (R100, R102). -/
abbrev CursorInv (s : State) : Prop :=
  (s.mapperFrame = true → s.preOk = true ∧ (s.curX ≠ 0 → s.curX.toNat < s.height.toNat) ∧
      s.curY.toNat ≤ s.height.toNat + 1 - s.offsetB ∧
      (s.curX ≠ 0 → s.curY.toNat + s.offsetB ≤ s.height.toNat)) ∧
    ((s.state = .pre ∨ s.state = .preFl ∨ (s.busy = true ∧ s.cfgSrc = true)) → s.curX = 0 ∧ s.curY = 0)

/-- The counters count what the trace and the sample list hold, modulo 2^32 (R43, R48 items 8 and 9). -/
abbrev CounterInv (s : State) : Prop :=
  s.samples = BitVec.ofNat 32 s.taken.length ∧ s.txBytes = BitVec.ofNat 32 (byteCount s.trace)

/-- The register invariants of a reset machine together. -/
abbrev RegInv (s : State) : Prop :=
  WidthInv s ∧ CountInv s ∧ RestInv s ∧ FlagInv s ∧ CursorInv s ∧ CounterInv s

/-- The canonical form of the memory and of the list of unstable addresses. -/
abbrev MemInv (s : State) : Prop := Memory.wf s.mem = true ∧ AddrSet.wf s.unstable = true

/-- The block work of a full block that is still to come once its last payload byte is out (R137 to R139). -/
def blockEvents : List Event := [.byte Config.padByte, .flush, .pause]

/-- The events the sequencer owes before it is ready for the next sample or the trailing flush (R158 to R161). -/
def State.pending (s : State) : List Event :=
  match s.state with
  | .emit => .byte s.acc :: (if s.byteCnt = 7 then blockEvents else [])
  | .pad => blockEvents
  | .blkFl => [.flush, .pause]
  | .pause => [.pause]
  | .idle => []
  | .pre => []
  | .preFl => []
  | .run => []
  | .fetch => []
  | .endFl => []
  | .error => []

/-- ACC once the owed events are out. -/
def State.accAfter (s : State) : Byte := if s.state = .emit then 0 else s.acc
/-- BITCNT once the owed events are out. -/
def State.bitsAfter (s : State) : Nat := if s.state = .emit then 0 else s.bitCnt.toNat
/-- BYTECNT once the owed events are out. -/
def State.bytesAfter (s : State) : Nat :=
  if s.state = .emit then (if s.byteCnt = 7 then 0 else s.byteCnt.toNat + 1)
  else if s.state = .pad then 0
  else s.byteCnt.toNat

/-- The sequencer is past the preamble flush of a running frame. -/
def SeqState.inFrame : SeqState → Bool
  | .idle => false
  | .pre => false
  | .preFl => false
  | .run => true
  | .fetch => true
  | .emit => true
  | .pad => true
  | .blkFl => true
  | .pause => true
  | .endFl => true
  | .error => false

/-- The machine carries out the frame function (R163): what it has produced, what it owes and its datapath are R145's
loop over the samples taken so far; once input has ended, what it has produced and owes is the whole frame but for
the trailing flush. A running frame's trace, and that of a frame an error aborted, is a prefix of the frame function's
under CFG.TAIL. In IDLE, and in ERROR entered from IDLE, CFG may have been written since the frame ended, so the trace is
that of one of the two policies. -/
abbrev FrameInv (s : State) : Prop :=
  (s.state = .pre → s.taken = [] ∧ s.trace = List.replicate s.preCnt.toNat (.byte Config.preByte)) ∧
    (s.state = .preFl → s.taken = [] ∧ s.trace = List.replicate Config.preLen (.byte Config.preByte)) ∧
    (s.state.inFrame = true → s.eoi = false →
      packAll s.taken = ⟨s.trace ++ s.pending, s.accAfter, s.bitsAfter, s.bytesAfter⟩) ∧
    (s.state.inFrame = true → s.eoi = true → s.trace ++ s.pending ++ [.flush] = frame s.taken s.cfgTail) ∧
    (s.state = .idle → s.done = true → ∃ pad : Bool, s.trace = frame s.taken pad) ∧
    ((s.state.phase = .busy ∨ (s.state = .error ∧ s.errState ≠ .idle)) → s.trace <+: frame s.taken s.cfgTail) ∧
    (∃ pad : Bool, s.trace <+: frame s.taken pad)

/-- No address the frame reads has been written during the frame (R69). -/
abbrev StableBuffer (s : State) : Prop := ∀ a ∈ s.unstable, s.len.toNat ≤ a

/-- The number of cursor advances since START: one for each sample taken, and one more in FETCH (R47, R106). -/
def State.advances (s : State) : Nat := s.taken.length + (if s.state = .fetch then 1 else 0)

/-- The mapper carries out the mapper sequence (R68 item 1, R108, R130): in a running mapper-mode frame whose buffer is
stable, the samples taken are the first of `mapper_seq`, the cursor stands after as many advances, the read in flight
is of the next index, and once input has ended all of `mapper_seq` has been taken. -/
abbrev MapperInv (s : State) : Prop :=
  s.mapperFrame = true →
    s.curX.toNat + s.curY.toNat * s.height.toNat = s.advances ∧
    s.advances ≤ s.frameIdx.length ∧
    (s.state = .fetch → s.frameIdx[s.taken.length]? = some s.readAddr.toNat) ∧
    (s.eoi = true → s.taken.length = s.frameIdx.length) ∧
    (StableBuffer s → s.taken = (s.frameIdx.take s.taken.length).map (byteAt s.mem))

/-- The invariant of a reset machine. -/
abbrev Inv (s : State) : Prop := RegInv s ∧ MemInv s ∧ FrameInv s ∧ MapperInv s

/-- The cycle of a command whose verdict is an error (R205, R208): an own error wins; otherwise the command's error is
raised over what the state's own action wrote. -/
def abortedBy (code : ErrCode) (s : State) : State :=
  match ownError s with
  | some c => raiseError c s.state s
  | none => raiseError code s.state (ownStep s)

/-- The bits of a command word its opcode reads at the build's parameters, OP among them (R82, R84). -/
def readMask (p : Params) : Opcode → Word
  | .nop => 0xF0000000
  | .setw => 0xF0000000 ||| BitVec.ofNat 32 (2 ^ p.dimBits - 1)
  | .seth => 0xF0000000 ||| BitVec.ofNat 32 (2 ^ p.dimBits - 1)
  | .setlen => 0xF0000000 ||| BitVec.ofNat 32 (2 ^ p.addrBits - 1)
  | .setcfg => 0xF0000007
  | .start => 0xF0000000
  | .sample => 0xF00000FF
  | .endInput => 0xF0000000
  | .clear => 0xF0000000
  | .reserved => 0xF0000000

/-- The state in which a command's own action and verdict are taken: after the host's memory writes of the cycle. -/
def State.afterWrites (s : State) : State := hostWrites s s.pins.memWrites

/-- A cycle without a reset in which no command is offered. -/
abbrev QuietPort (s : State) : Prop := s.pins.rst = false ∧ s.pins.cmdValid = false

/-- A cycle that the model takes: after the first reset, with the host's memory writes inside the address space. -/
abbrev Runs (s : State) : Prop := s.everReset = true ∧ writesInRange s.params s.pins.memWrites = true

/-- The sink answers ok to every offer and request of this cycle: the ideal sink of R247. -/
abbrev IdealSink (s : State) : Prop := s.pins.writeAnswer = .ok ∧ s.pins.flushAnswer = .ok

/-- The sink answers nothing in this cycle (R236). -/
abbrev SilentSink (s : State) : Prop := s.pins.writeAnswer = .wait ∧ s.pins.flushAnswer = .wait

/-- The cycles of R247 from a RUN cycle on, with an ideal sink: `n` samples to come, `k` bits in the accumulator, `nb`
payload bytes in the block; RUN and FETCH for each sample, EMIT for each payload byte, the block work of each full
block, the last RUN and END_FL. -/
def cyclesFromRun (pause n k nb : Nat) (pad : Bool) : Nat :=
  2 * n + payloadBytes (k + n) pad + (nb + payloadBytes (k + n) pad) / 8 * (2 + pause) + 2

/-- The cycles an ideal sink still needs to the end of a mapper-mode frame, the END_FL cycle included (R247). -/
def State.cyclesLeft (s : State) : Nat :=
  let pause := s.params.pauseCycles.toNat
  let n := s.frameIdx.length - s.taken.length
  let rest (k nb : Nat) : Nat := if s.eoi then 1 else cyclesFromRun pause n k nb s.cfgTail
  match s.state with
  | .idle => 0
  | .pre => 11 - s.preCnt.toNat + 1 + rest 0 0
  | .preFl => 1 + rest 0 0
  | .run => rest s.bitCnt.toNat s.byteCnt.toNat
  | .fetch => rest s.bitCnt.toNat s.byteCnt.toNat - 1
  | .emit => 1 + (if s.byteCnt = 7 then 2 + pause + rest 0 0 else rest 0 (s.byteCnt.toNat + 1))
  | .pad => 2 + pause + rest 0 0
  | .blkFl => 1 + pause + rest 0 0
  | .pause => s.pauseCnt.toNat + rest 0 0
  | .endFl => 1
  | .error => 0

end Sys2Proof.Machine
end

