-- ==== Sys2Proof/Certificates/Slice0/Obligations.lean ====
section
/-! DEFINITION. The statements about the model, for the provers. -/

open Sys2Proof Sys2Proof.Machine

/-! Reset (70_reset_and_hazards.md, 10_state.md). -/

/-- R49, R232: the registers after reset. The build is the one of the spec's default widths (R8). -/
def Obligations.ResetStateHoldsTheSpecValues : Prop :=
  State.reset.state = .idle ∧ State.reset.acc = 0 ∧ State.reset.bitCnt = 0 ∧ State.reset.byteCnt = 0 ∧
    State.reset.preCnt = 0 ∧ State.reset.eoi = false ∧ State.reset.done = false ∧ State.reset.err.code = 0 ∧
    State.reset.errState.code = 0 ∧ State.reset.width = 64 ∧ State.reset.height = 64 ∧ State.reset.len = 4096 ∧
    State.reset.cfg = 0 ∧ State.reset.curX = 0 ∧ State.reset.curY = 0 ∧ State.reset.pauseCnt = 0 ∧
    State.reset.samples = 0 ∧ State.reset.txBytes = 0 ∧ State.reset.blocks = 0 ∧ State.reset.tailBits = 0 ∧
    State.reset.tailEmit = false ∧ State.reset.readback 12 = 0x46485031 ∧ State.reset.status = 0 ∧
    State.reset.busy = false ∧ State.reset.preOk = true ∧ State.reset.params.dimBits = 12 ∧
    State.reset.params.addrBits = 24

/-- R230: an edge with `rst` = 1 gives every register its reset value whatever STATE it was in, consumes no word and
leaves the sample memory to the host's own writes; that `trace` and `taken` begin anew is the model's
choice (log entry 14). -/
def Obligations.RstEdgeResetsEveryRegister : Prop :=
  ∀ s : State, writesInRange s.params s.pins.memWrites = true → s.pins.rst = true →
    step s = .next (endCycle
      { s.afterWrites with
        state := .idle, acc := 0, bitCnt := 0, byteCnt := 0, preCnt := 0, eoi := false, done := false
        err := .noError, errState := .idle, width := 64, height := 64, len := 4096, cfg := 0
        curX := 0, curY := 0, pauseCnt := 0, samples := 0, txBytes := 0, blocks := 0
        tailBits := 0, tailEmit := false, everReset := true, trace := [], taken := [] }) ∧
    (outputsOf s s.pins).cmdReady = false ∧ (outputsOf s s.pins).txValid = false ∧
    (outputsOf s s.pins).flReq = false ∧ (outputsOf s s.pins).memEn = false ∧
    (∀ a, (∀ c ∈ s.pins.memWrites, c.1 ≠ a) → Memory.read s.afterWrites.mem a = Memory.read s.mem a)

/-- R233, R231: before the first reset edge a cycle without `rst` has no meaning; one edge with `rst` = 1 is enough. The
flag `everReset` and the refusal are the model's form of it (log entry 11). -/
def Obligations.UnresetMachineIsRefusedUntilOneRstEdge : Prop :=
  ∀ s : State, s.everReset = false →
    (s.pins.rst = false → step s = .refused .neverReset) ∧
    (s.pins.rst = true → writesInRange s.params s.pins.memWrites = true →
      ∃ t, step s = .next t ∧ t.everReset = true ∧ t.state = .idle ∧ t.status = 0)

/-- The reset state meets the invariant every step keeps (R48, R163). -/
def Obligations.ResetStateMeetsTheInvariant : Prop := Inv State.reset

/-! Encoding (30_encoding.md). -/

/-- R80, R82: decoding the word of any command gives the command back, every operand at every value. -/
def Obligations.DecodeOfEncodeIsTheCommand : Prop := ∀ i : Instr, decode (encode i) = i

/-- R83: the opcode map. Every word is decoded by its OP field; OP 0x9 to 0xF are the reserved class. -/
def Obligations.DecodeFollowsTheOpcodeMap : Prop :=
  ∀ w : Word,
    (decode w).opBits = w.extractLsb' 28 4 ∧
    (w.extractLsb' 28 4 = 0x0 → (decode w).opcode = .nop) ∧ (w.extractLsb' 28 4 = 0x1 → (decode w).opcode = .setw) ∧
    (w.extractLsb' 28 4 = 0x2 → (decode w).opcode = .seth) ∧ (w.extractLsb' 28 4 = 0x3 → (decode w).opcode = .setlen) ∧
    (w.extractLsb' 28 4 = 0x4 → (decode w).opcode = .setcfg) ∧ (w.extractLsb' 28 4 = 0x5 → (decode w).opcode = .start) ∧
    (w.extractLsb' 28 4 = 0x6 → (decode w).opcode = .sample) ∧
    (w.extractLsb' 28 4 = 0x7 → (decode w).opcode = .endInput) ∧
    (w.extractLsb' 28 4 = 0x8 → (decode w).opcode = .clear) ∧
    (9 ≤ (w.extractLsb' 28 4).toNat → (decode w).opcode = .reserved)

/-- R84: a command acts as if the ARG bits its opcode does not read were 0. -/
def Obligations.IgnoredArgBitsHaveNoEffect : Prop :=
  ∀ (s : State) (w : Word), s.params.Legal →
    exec (decode w) s = exec (decode (w &&& readMask s.params (decode w).opcode)) s

/-- R84 (last sentence), R88, R90: every word the assembler writes for a command or a pseudo-instruction decodes to a
command that passes the assembler's check, and has every bit its opcode does not read 0. -/
def Obligations.AssembledWordsAreWellFormed : Prop :=
  ∀ (p : Params) (op : AsmOp) (ws : List Word), p.Legal → (∀ w, op ≠ .word w) → assembleOp p op = some ws →
    ∀ w ∈ ws, (decode w).wellFormed p = true ∧ encode (decode w) = w ∧ w &&& readMask p (decode w).opcode = w

/-- 95_test_vectors.md 2.5: words of the spec's table decode to the commands it names. -/
def Obligations.SpecWordsDecode : Prop :=
  decode 0x00000000 = .nop ∧ decode 0x10000040 = .setw 64 ∧ decode 0x20000040 = .seth 64 ∧
    decode 0x30001000 = .setlen 4096 ∧ decode 0x40000003 = .setcfg 3 ∧ decode 0x4FFFFFF5 = .setcfg 5 ∧
    decode 0x5FFFFFFF = .start ∧ decode 0x6ABCDE80 = .sample 0x80 ∧ decode 0x70000000 = .endInput ∧
    decode 0x80000000 = .clear ∧ decode 0x90000000 = .reserved9 ∧ decode 0xFFFFFFFF = .reservedF

/-! The cycle (41_packer.md R150, 42_commands.md R170, 60_exceptions.md R208). -/

/-- R150, R170: in a cycle with `rst` = 0 in which a word is offered, the step is the cycle of the command it decodes
to, after the host's memory writes; then the next cycle's pins come up. A word offered by `withFetchWord` is run by the
very next step. -/
def Obligations.StepRunsTheDecodedCommand : Prop :=
  (∀ s : State, Runs s → s.pins.rst = false → s.pins.cmdValid = true →
    step s = mapNext endCycle (exec (decode s.pins.cmdWord) s.afterWrites)) ∧
  (∀ (s : State) (nbits w : Nat) (i : Instr), decodeTableWord nbits w = some i →
    step (s.withFetchWord nbits w) = mapNext endCycle (exec i (s.withFetchWord nbits w)))

/-- R150: in a cycle with `rst` = 0 in which no word is offered, the step is the state's own action. -/
def Obligations.StepWithoutACommandIsTheOwnAction : Prop :=
  ∀ s : State, Runs s → QuietPort s → step s = .next (endCycle (ownCycle s.afterWrites))

/-- R203, R208: a sink failure in the cycle is the error recorded, whatever command is offered; the command has no
effect and no other register changes. -/
def Obligations.SinkFailureWinsOverEveryCommand : Prop :=
  ∀ (i : Instr) (s : State),
    ((s.state = .pre ∨ s.state = .emit ∨ s.state = .pad) → s.pins.txErr = true →
      exec i s = .next { s with err := .txIo, errState := s.state, done := false, state := .error } ∧
      ownCycle s = { s with err := .txIo, errState := s.state, done := false, state := .error }) ∧
    ((s.state = .preFl ∨ s.state = .blkFl ∨ s.state = .endFl) → s.pins.flErr = true →
      exec i s = .next { s with err := .flushIo, errState := s.state, done := false, state := .error } ∧
      ownCycle s = { s with err := .flushIo, errState := s.state, done := false, state := .error })

/-- R205, R206, R208: a command's error is recorded with STATE as it was at the start of the cycle, and keeps what the
state's own action wrote in the cycle, except STATE. -/
def Obligations.CommandErrorKeepsTheOwnActionsWrites : Prop :=
  ∀ (i : Instr) (s : State) (c : ErrCode), ownError s = none → verdict i.opcode s.state s.cfgSrc = .error c →
    exec i s = .next { ownStep s with err := c, errState := s.state, done := false, state := .error }

/-- R26: a word offered while `cmd_ready` = 0 is not consumed and has no effect: the step is that of the same cycle
with no word offered. -/
def Obligations.StalledWordHasNoEffect : Prop :=
  ∀ (s : State) (p : CycleInput) (rest : List CycleInput), s.inputs = p :: rest → p.rst = false →
    (outputsOf s p).cmdReady = false →
    step s = step { s with inputs := { p with cmdValid := false } :: rest }

/-- R171: the verdict table, and `cmd_ready` from it. -/
def Obligations.VerdictTableAndCmdReady : Prop :=
  ∀ (st : SeqState) (stream : Bool),
    verdict .nop st stream = .act ∧
    (∀ op ∈ [Opcode.setw, .seth, .setlen, .setcfg, .start],
      verdict op st stream = if st = .idle then .act else if st = .error then .ignore else .error .cmdState) ∧
    (∀ op ∈ [Opcode.sample, .endInput],
      verdict op st stream =
        if st = .idle then .error .cmdState else if st = .error then .ignore
        else if stream = false then .error .cmdState else if st = .run then .act else .stall) ∧
    verdict .clear st stream = (if st = .idle ∨ st = .error then .act else .ignore) ∧
    verdict .reserved st stream = (if st = .error then .ignore else .error .illegalCmd) ∧
    (∀ op, cmdReady op st stream = false ↔
      (op = .sample ∨ op = .endInput) ∧ st ≠ .idle ∧ st ≠ .error ∧ stream = true ∧ st ≠ .run)

/-! The commands (42_commands.md). In a statement about `exec`, everything the record update does not name is
unchanged: registers, flags, memory and trace. -/

/-- R172: NOP (constructor `nop`) decodes from OP 0x0 and changes nothing: its cycle is the state's own action alone,
and in IDLE and ERROR the state is left as it is. -/
def Obligations.NopChangesNothing : Prop :=
  (∀ arg : Arg, decode (0x0#4 ++ arg) = .nop) ∧
    ∀ s : State, exec .nop s = .next (ownCycle s) ∧ ((s.state = .idle ∨ s.state = .error) → exec .nop s = .next s)

/-- R173: SETW (constructor `setw`). -/
def Obligations.SetwSetsTheWidth : Prop :=
  (∀ arg : Arg, decode (0x1#4 ++ arg) = .setw arg) ∧
    ∀ (s : State) (arg : Arg),
      (s.state = .idle →
        exec (.setw arg) s = .next { s with width := BitVec.ofNat 14 (arg.toNat % 2 ^ s.params.dimBits) }) ∧
      (s.state.phase = .busy → exec (.setw arg) s = .next (abortedBy .cmdState s)) ∧
      (s.state = .error → exec (.setw arg) s = .next s)

/-- R174: SETH (constructor `seth`). -/
def Obligations.SethSetsTheHeight : Prop :=
  (∀ arg : Arg, decode (0x2#4 ++ arg) = .seth arg) ∧
    ∀ (s : State) (arg : Arg),
      (s.state = .idle →
        exec (.seth arg) s = .next { s with height := BitVec.ofNat 14 (arg.toNat % 2 ^ s.params.dimBits) }) ∧
      (s.state.phase = .busy → exec (.seth arg) s = .next (abortedBy .cmdState s)) ∧
      (s.state = .error → exec (.seth arg) s = .next s)

/-- R175: SETLEN (constructor `setlen`). -/
def Obligations.SetlenSetsTheLength : Prop :=
  (∀ arg : Arg, decode (0x3#4 ++ arg) = .setlen arg) ∧
    ∀ (s : State) (arg : Arg),
      (s.state = .idle →
        exec (.setlen arg) s = .next { s with len := BitVec.ofNat 28 (arg.toNat % 2 ^ s.params.addrBits) }) ∧
      (s.state.phase = .busy → exec (.setlen arg) s = .next (abortedBy .cmdState s)) ∧
      (s.state = .error → exec (.setlen arg) s = .next s)

/-- R176: SETCFG (constructor `setcfg`). -/
def Obligations.SetcfgSetsTheConfiguration : Prop :=
  (∀ arg : Arg, decode (0x4#4 ++ arg) = .setcfg (arg.setWidth 3)) ∧
    ∀ (s : State) (c : BitVec 3),
      (s.state = .idle → exec (.setcfg c) s = .next { s with cfg := c }) ∧
      (s.state.phase = .busy → exec (.setcfg c) s = .next (abortedBy .cmdState s)) ∧
      (s.state = .error → exec (.setcfg c) s = .next s)

/-- R177, R202: START (constructor `start`). In IDLE it clears the frame registers and enters PRE; in mapper mode with
LEN ≠ WIDTH × HEIGHT it enters ERROR with PRECOND instead. That a new frame's `trace` and `taken` start empty is the
model's (log entry 14). -/
def Obligations.StartBeginsAFrameOrRaisesPrecond : Prop :=
  (∀ arg : Arg, decode (0x5#4 ++ arg) = .start) ∧
    ∀ s : State,
      (s.state = .idle → (s.cfgSrc = true ∨ s.len.toNat = s.width.toNat * s.height.toNat) →
        exec .start s = .next
          { s with
            acc := 0, bitCnt := 0, byteCnt := 0, preCnt := 0, eoi := false, done := false, curX := 0, curY := 0
            pauseCnt := 0, samples := 0, txBytes := 0, blocks := 0, tailBits := 0, tailEmit := false
            trace := [], taken := [], state := .pre }) ∧
      (s.state = .idle → s.cfgSrc = false → s.len.toNat ≠ s.width.toNat * s.height.toNat →
        exec .start s = .next
          { s with
            acc := 0, bitCnt := 0, byteCnt := 0, preCnt := 0, eoi := false, done := false, curX := 0, curY := 0
            pauseCnt := 0, samples := 0, txBytes := 0, blocks := 0, tailBits := 0, tailEmit := false
            trace := [], taken := [], err := .precond, errState := .idle, state := .error }) ∧
      (s.state.phase = .busy → exec .start s = .next (abortedBy .cmdState s)) ∧
      (s.state = .error → exec .start s = .next s)

/-- R178, R132: SAMPLE (constructor `sample`). The list `taken` is the model's own observation (log entry 14). -/
def Obligations.SampleEntersThePackerInRun : Prop :=
  (∀ arg : Arg, decode (0x6#4 ++ arg) = .sample (arg.setWidth 8)) ∧
    ∀ (s : State) (b : Byte),
      (s.state = .run → s.cfgSrc = true →
        exec (.sample b) s = .next
          { s with
            acc := s.acc ||| ((if 127 < b.toNat then 1 else 0) <<< (s.bitCnt.toNat % 8))
            samples := s.samples + 1
            taken := s.taken ++ [b]
            bitCnt := if s.bitCnt = 7 then 8 else s.bitCnt + 1
            state := if s.bitCnt = 7 then .emit else .run }) ∧
      (s.state.phase = .busy → s.cfgSrc = true → s.state ≠ .run →
        exec (.sample b) s = .next (ownCycle s) ∧ cmdReady .sample s.state s.cfgSrc = false) ∧
      ((s.state = .idle ∨ (s.state.phase = .busy ∧ s.cfgSrc = false)) →
        exec (.sample b) s = .next (abortedBy .cmdState s)) ∧
      (s.state = .error → exec (.sample b) s = .next s)

/-- R179, R157: END (constructor `endInput`). A tail of bits is dropped under DROP and offered as a byte under PAD. -/
def Obligations.EndClosesTheInputInRun : Prop :=
  (∀ arg : Arg, decode (0x7#4 ++ arg) = .endInput) ∧
    ∀ s : State,
      (s.state = .run → s.cfgSrc = true → s.cfgTail = true → s.bitCnt ≠ 0 →
        exec .endInput s = .next
          { s with eoi := true, tailBits := s.bitCnt &&& 7, tailEmit := true, state := .emit }) ∧
      (s.state = .run → s.cfgSrc = true → (s.cfgTail = false ∨ s.bitCnt = 0) →
        exec .endInput s = .next
          { s with
            eoi := true, tailBits := s.bitCnt &&& 7, tailEmit := false, acc := 0, bitCnt := 0, state := .endFl }) ∧
      (s.state.phase = .busy → s.cfgSrc = true → s.state ≠ .run →
        exec .endInput s = .next (ownCycle s) ∧ cmdReady .endInput s.state s.cfgSrc = false) ∧
      ((s.state = .idle ∨ (s.state.phase = .busy ∧ s.cfgSrc = false)) →
        exec .endInput s = .next (abortedBy .cmdState s)) ∧
      (s.state = .error → exec .endInput s = .next s)

/-- R180: CLEAR (constructor `clear`) acts in IDLE and ERROR, and is ignored when busy. It keeps WIDTH, HEIGHT, LEN,
CFG, SAMPLES, TXBYTES, BLOCKS, TAILBITS, TAILEMIT and the trace. -/
def Obligations.ClearLeavesErrorAndNeverCancels : Prop :=
  (∀ arg : Arg, decode (0x8#4 ++ arg) = .clear) ∧
    ∀ s : State,
      ((s.state = .idle ∨ s.state = .error) →
        exec .clear s = .next
          { s with
            err := .noError, errState := .idle, done := false, acc := 0, bitCnt := 0, byteCnt := 0, preCnt := 0
            eoi := false, curX := 0, curY := 0, pauseCnt := 0, state := .idle }) ∧
      (s.state.phase = .busy → exec .clear s = .next (ownCycle s))

/-- R181, R85: the reserved opcodes (constructors `reserved9`, `reservedA`, `reservedB`, `reservedC`, `reservedD`,
`reservedE`, `reservedF`) raise ILLEGAL_CMD outside ERROR and are ignored in it. -/
def Obligations.ReservedOpcodesRaiseIllegalCmd : Prop :=
  (∀ arg : Arg, decode (0x9#4 ++ arg) = .reserved9 ∧ decode (0xA#4 ++ arg) = .reservedA ∧
    decode (0xB#4 ++ arg) = .reservedB ∧ decode (0xC#4 ++ arg) = .reservedC ∧ decode (0xD#4 ++ arg) = .reservedD ∧
    decode (0xE#4 ++ arg) = .reservedE ∧ decode (0xF#4 ++ arg) = .reservedF) ∧
    ∀ i ∈ [Instr.reserved9, .reservedA, .reservedB, .reservedC, .reservedD, .reservedE, .reservedF], ∀ s : State,
      (s.state = .idle →
        exec i s = .next { s with err := .illegalCmd, errState := .idle, done := false, state := .error }) ∧
      (s.state.phase = .busy → exec i s = .next (abortedBy .illegalCmd s)) ∧
      (s.state = .error → exec i s = .next s) ∧
      (∀ stream, cmdReady i.opcode s.state stream = true)

/-! The sequencer (41_packer.md R151 to R165). -/

/-- R151, R155, R164: IDLE, ERROR and RUN in stream mode have no own action; they offer no byte, request no flush and
issue no read. RUN in stream mode takes SAMPLE and END. -/
def Obligations.StatesWithoutAnOwnAction : Prop :=
  ∀ s : State, (s.state = .idle ∨ s.state = .error ∨ (s.state = .run ∧ s.cfgSrc = true)) →
    ownCycle s = s ∧ (outputsOf s s.pins).txValid = false ∧ (outputsOf s s.pins).flReq = false ∧
      (outputsOf s s.pins).memEn = false ∧
      (s.state = .run → cmdReady .sample s.state s.cfgSrc = true ∧ cmdReady .endInput s.state s.cfgSrc = true)

/-- R152, R158, R159, R24: the three states that offer a byte, PRE, EMIT and PAD: the byte offered, the failure, the
wait, and what an accepted byte does in each. -/
def Obligations.ByteStatesOfferUntilTheSinkAnswers : Prop :=
  ∀ s : State, (s.state = .pre ∨ s.state = .emit ∨ s.state = .pad) → s.pins.rst = false →
    (outputsOf s s.pins).txValid = true ∧
    (s.state = .pre → (outputsOf s s.pins).txData = 0x23) ∧
    (s.state = .emit → (outputsOf s s.pins).txData = s.acc) ∧
    (s.state = .pad → (outputsOf s s.pins).txData = 0x00) ∧
    (s.pins.txErr = true →
      ownCycle s = { s with err := .txIo, errState := s.state, done := false, state := .error }) ∧
    (s.pins.txErr = false → s.pins.txReady = false → ownCycle s = s) ∧
    (s.pins.txErr = false → s.pins.txReady = true → s.state = .pre →
      ownCycle s =
        { s with
          txBytes := s.txBytes + 1, preCnt := s.preCnt + 1, trace := s.trace ++ [.byte 0x23]
          state := if s.preCnt = 10 then .preFl else .pre }) ∧
    (s.pins.txErr = false → s.pins.txReady = true → s.state = .emit →
      ownCycle s =
        { s with
          txBytes := s.txBytes + 1, acc := 0, bitCnt := 0, trace := s.trace ++ [.byte s.acc]
          byteCnt := if s.byteCnt = 7 then 8 else s.byteCnt + 1
          state := if s.byteCnt = 7 then .pad else if s.eoi = true then .endFl else .run }) ∧
    (s.pins.txErr = false → s.pins.txReady = true → s.state = .pad →
      ownCycle s =
        { s with txBytes := s.txBytes + 1, byteCnt := 0, trace := s.trace ++ [.byte 0x00], state := .blkFl })

/-- R153, R160, R162: the three flush states PRE_FL, BLK_FL and END_FL. -/
def Obligations.FlushStatesWaitForTheSink : Prop :=
  ∀ s : State, (s.state = .preFl ∨ s.state = .blkFl ∨ s.state = .endFl) → s.pins.rst = false →
    (outputsOf s s.pins).flReq = true ∧
    (s.pins.flErr = true →
      ownCycle s = { s with err := .flushIo, errState := s.state, done := false, state := .error }) ∧
    (s.pins.flErr = false → s.pins.flDone = false → ownCycle s = s) ∧
    (s.pins.flErr = false → s.pins.flDone = true → s.state = .preFl →
      ownCycle s = { s with state := .run, trace := s.trace ++ [.flush] }) ∧
    (s.pins.flErr = false → s.pins.flDone = true → s.state = .blkFl →
      ownCycle s =
        { s with
          blocks := s.blocks + 1, pauseCnt := s.params.pauseCycles, state := .pause, trace := s.trace ++ [.flush] }) ∧
    (s.pins.flErr = false → s.pins.flDone = true → s.state = .endFl →
      ownCycle s = { s with done := true, state := .idle, trace := s.trace ++ [.flush] })

/-- R154, R103, R105, R107, R157: RUN in mapper mode, with the index written out in exact integers. An index out of bounds
ends the input: under PAD with bits left the tail byte is offered, otherwise the bits are dropped. An index in bounds is
read; `readAddr` is the model's record of the read in flight (log entry 6). -/
def Obligations.RunInMapperModeReadsOrEndsInput : Prop :=
  ∀ (s : State) (i : Int), s.state = .run → s.cfgSrc = false →
    i = (s.curX.toNat : Int) * s.width.toNat + s.height.toNat - (1 - s.cfgMaplit.toNat : Int) - s.curY.toNat →
    ((i < 0 ∨ (s.len.toNat : Int) ≤ i) →
      (s.cfgTail = true → s.bitCnt ≠ 0 →
        ownCycle s = { s with eoi := true, tailBits := s.bitCnt &&& 7, tailEmit := true, state := .emit }) ∧
      ((s.cfgTail = false ∨ s.bitCnt = 0) →
        ownCycle s =
          { s with
            eoi := true, tailBits := s.bitCnt &&& 7, tailEmit := false, acc := 0, bitCnt := 0, state := .endFl })) ∧
    (0 ≤ i → i < s.len.toNat →
      ownCycle s =
        { s with
          readAddr := BitVec.ofNat 28 (i.toNat % 2 ^ s.params.addrBits)
          curX := BitVec.ofNat 15
            ((if s.curX.toNat + 1 = s.height.toNat then 0 else s.curX.toNat + 1) % 2 ^ (s.params.dimBits + 1))
          curY := BitVec.ofNat 15
            ((if s.curX.toNat + 1 = s.height.toNat then s.curY.toNat + 1 else s.curY.toNat) %
              2 ^ (s.params.dimBits + 1))
          state := .fetch })

/-- R62, R106, R156, R132: in mapper mode the sample the packer takes in FETCH is the byte at the index of the RUN
cycle before, for an address the host has not written during the frame (`unstable` and `taken` are the model's, log entries 4
and 14). -/
def Obligations.FetchTakesTheByteAtTheIndex : Prop :=
  ∀ s : State, RegInv s → s.state = .run → s.cfgSrc = false → 0 ≤ s.index → s.index < s.len.toNat →
    s.index.toNat ∉ s.unstable →
    ownCycle (ownCycle s) =
      { ownCycle s with
        acc := s.acc ||| ((if 127 < (byteAt s.mem s.index.toNat).toNat then 1 else 0) <<< s.bitCnt.toNat)
        samples := s.samples + 1
        taken := s.taken ++ [byteAt s.mem s.index.toNat]
        bitCnt := if s.bitCnt = 7 then 8 else s.bitCnt + 1
        state := if s.bitCnt = 7 then .emit else .run }

/-- R165, R29: the outputs of every state with `rst` = 0, in the order `tx_valid`, `tx_data`, `fl_req`, `mem_en`,
`mem_addr`, `busy_o`; `done_o` and `err_o`; `cmd_ready` from the verdict table; and R27: `rd_data` is the numbered
register as it is in this cycle. -/
def Obligations.OutputsFollowTheStateTable : Prop :=
  ∀ (s : State) (p : CycleInput), RegInv s → p.rst = false →
    let o := outputsOf s p
    let row := (o.txValid, o.txData, o.flReq, o.memEn, o.memAddr.toNat, o.busyO)
    (s.state = .idle → row = (false, 0, false, false, 0, false)) ∧
    (s.state = .pre → row = (true, 0x23, false, false, 0, true)) ∧
    (s.state = .preFl → row = (false, 0, true, false, 0, true)) ∧
    (s.state = .run → s.cfgSrc = false → 0 ≤ s.index → s.index < s.len.toNat →
      row = (false, 0, false, true, s.index.toNat, true)) ∧
    (s.state = .run → s.cfgSrc = false → (s.index < 0 ∨ (s.len.toNat : Int) ≤ s.index) →
      row = (false, 0, false, false, 0, true)) ∧
    (s.state = .run → s.cfgSrc = true → row = (false, 0, false, false, 0, true)) ∧
    (s.state = .fetch → row = (false, 0, false, false, 0, true)) ∧
    (s.state = .emit → row = (true, s.acc, false, false, 0, true)) ∧
    (s.state = .pad → row = (true, 0, false, false, 0, true)) ∧
    (s.state = .blkFl → row = (false, 0, true, false, 0, true)) ∧
    (s.state = .pause → row = (false, 0, false, false, 0, true)) ∧
    (s.state = .endFl → row = (false, 0, true, false, 0, true)) ∧
    (s.state = .error → row = (false, 0, false, false, 0, false)) ∧
    o.doneO = s.done ∧ (o.errO = true ↔ s.state = .error) ∧ o.rdData = s.readback p.rdSel ∧
    o.cmdReady = cmdReady (decode p.cmdWord).opcode s.state s.cfgSrc

/-- R46: the fields of the STATUS word. -/
def Obligations.StatusWordFields : Prop :=
  ∀ s : State,
    s.status.extractLsb' 0 4 = s.state.code ∧ s.status.extractLsb' 4 4 = s.err.code ∧
    s.status.getLsbD 8 = s.done ∧ (s.status.getLsbD 9 = true ↔ s.state ≠ .idle ∧ s.state ≠ .error) ∧
    s.status.getLsbD 10 = s.eoi ∧ s.status.getLsbD 11 = s.tailEmit ∧ s.status.extractLsb' 12 4 = s.bitCnt ∧
    s.status.extractLsb' 16 4 = s.byteCnt ∧ s.status.extractLsb' 20 4 = s.preCnt ∧
    s.status.extractLsb' 24 4 = s.tailBits ∧ s.status.extractLsb' 28 4 = s.errState.code

/-- R45: the readback map. Bits above a register's width read 0, the widths being those of R38 and R41. -/
def Obligations.ReadbackMap : Prop :=
  ∀ s : State, WidthInv s →
    s.readback 0 = s.status ∧ (s.readback 1).toNat = s.cfg.toNat ∧
    (s.readback 2).toNat = s.width.toNat ∧ (s.readback 2).toNat < 2 ^ s.params.dimBits ∧
    (s.readback 3).toNat = s.height.toNat ∧ (s.readback 3).toNat < 2 ^ s.params.dimBits ∧
    (s.readback 4).toNat = s.len.toNat ∧ (s.readback 4).toNat < 2 ^ s.params.addrBits ∧
    (s.readback 5).toNat = s.acc.toNat ∧
    (s.readback 6).toNat = s.curX.toNat ∧ (s.readback 6).toNat < 2 ^ (s.params.dimBits + 1) ∧
    (s.readback 7).toNat = s.curY.toNat ∧ (s.readback 7).toNat < 2 ^ (s.params.dimBits + 1) ∧
    s.readback 8 = s.samples ∧ s.readback 9 = s.txBytes ∧ s.readback 10 = s.blocks ∧ s.readback 11 = s.pauseCnt ∧
    s.readback 12 = 0x46485031 ∧ s.readback 13 = 0 ∧ s.readback 14 = 0 ∧ s.readback 15 = 0

/-- R131: the threshold, and the spec's own inference that it equals bit 7 of the sample. -/
def Obligations.ThresholdIsBitSeven : Prop :=
  ∀ b : Byte, (threshold b = true ↔ 127 < b.toNat) ∧ threshold b = b.getLsbD 7

/-! Rules of the whole machine. -/

/-- R201, R205, R206: ERROR is entered only with one of the five codes, each from its own cause, with ERRSTATE the
state the cycle began in and DONE cleared. -/
def Obligations.EveryErrorHasItsCauseAndRecord : Prop :=
  ∀ s t : State, step s = .next t → s.state ≠ .error → t.state = .error →
    t.errState = s.state ∧ t.done = false ∧
    ((t.err = .txIo ∧ (s.state = .pre ∨ s.state = .emit ∨ s.state = .pad) ∧ s.pins.txErr = true) ∨
     (t.err = .flushIo ∧ (s.state = .preFl ∨ s.state = .blkFl ∨ s.state = .endFl) ∧ s.pins.flErr = true) ∨
     (t.err = .precond ∧ s.state = .idle ∧ s.pins.cmdValid = true ∧ decode s.pins.cmdWord = .start ∧
       s.cfgSrc = false ∧ s.len.toNat ≠ s.width.toNat * s.height.toNat) ∨
     (t.err = .illegalCmd ∧ s.pins.cmdValid = true ∧ (decode s.pins.cmdWord).opcode = .reserved) ∨
     (t.err = .cmdState ∧ s.pins.cmdValid = true ∧
       verdict (decode s.pins.cmdWord).opcode s.state s.cfgSrc = .error .cmdState))

/-- R209, R210, R207: only reset and CLEAR leave ERROR; until then the first error's ERR and ERRSTATE are kept, the
registers stay, and no event is added to the trace. -/
def Obligations.OnlyResetOrClearLeavesError : Prop :=
  ∀ s t : State, step s = .next t → s.state = .error → s.pins.rst = false →
    (s.pins.cmdValid = true → decode s.pins.cmdWord ≠ .clear) →
    t = endCycle s.afterWrites ∧ t.state = .error ∧ t.err = s.err ∧ t.errState = s.errState ∧ t.trace = s.trace

/-- R151: IDLE "is left only by a consumed START or by a command that raises an error". -/
def Obligations.IdleIsLeftOnlyByStartOrAnError : Prop :=
  ∀ s t : State, step s = .next t → s.state = .idle → t.state ≠ .idle →
    s.pins.rst = false ∧ s.pins.cmdValid = true ∧
    ((decode s.pins.cmdWord = .start ∧ (t.state = .pre ∨ t.err = .precond)) ∨
     (t.state = .error ∧ (t.err = .cmdState ∨ t.err = .illegalCmd)))

/-- R171 (consequences), R38, R39: the configuration cannot change while a frame runs. -/
def Obligations.ConfigurationIsFrozenDuringAFrame : Prop :=
  ∀ s t : State, step s = .next t → s.state.phase = .busy → s.pins.rst = false →
    t.width = s.width ∧ t.height = s.height ∧ t.len = s.len ∧ t.cfg = s.cfg ∧ t.params = s.params

/-- R36, R144: DONE rises only when the trailing flush completes, which is then the last event of the trace. -/
def Obligations.DoneRisesOnlyWithTheTrailingFlush : Prop :=
  ∀ s t : State, step s = .next t → s.done = false → t.done = true →
    s.state = .endFl ∧ s.pins.flErr = false ∧ s.pins.flDone = true ∧ t.state = .idle ∧ t.trace = s.trace ++ [.flush]

/-- R41, R113: while a frame runs, the cursor moves only in a mapper step, one position forward in target order. -/
def Obligations.CursorOnlyMovesForward : Prop :=
  ∀ s t : State, RegInv s → step s = .next t → s.state.phase = .busy → s.pins.rst = false →
    (t.curX = s.curX ∧ t.curY = s.curY) ∨
    (s.state = .run ∧ s.cfgSrc = false ∧
      t.curX.toNat + t.curY.toNat * s.height.toNat = s.curX.toNat + s.curY.toNat * s.height.toNat + 1 ∧
      t.curX.toNat < s.height.toNat)

/-- R100: in stream mode WIDTH, HEIGHT and LEN have no effect on a frame, no read is issued and the cursor stays. That the
model's own record of the read in flight and its draw counter stay too is said of log entries 6 and 4. -/
def Obligations.StreamFrameIgnoresTheMapper : Prop :=
  ∀ (s t : State) (w h : BitVec 14) (n : BitVec 28), step s = .next t → s.state.phase = .busy → s.cfgSrc = true →
    s.state ≠ .fetch → s.pins.rst = false →
    step { s with width := w, height := h, len := n } = .next { t with width := w, height := h, len := n } ∧
    t.curX = s.curX ∧ t.curY = s.curY ∧ t.readAddr = s.readAddr ∧ t.draws = s.draws ∧
    (outputsOf s s.pins).memEn = false

/-- R24, R25, D34: the sink's inputs are ignored in a state that offers no byte, and requests no flush. -/
def Obligations.UnrequestedSinkAnswersAreIgnored : Prop :=
  ∀ (s : State) (p : CycleInput) (rest : List CycleInput) (ready err : Bool), s.inputs = p :: rest →
    (s.state.offersByte = false → step { s with inputs := { p with txReady := ready, txErr := err } :: rest } = step s) ∧
    (s.state.requestsFlush = false → step { s with inputs := { p with flDone := ready, flErr := err } :: rest } = step s)

/-- R13, R61: the FHP never writes the sample memory: no command's cycle touches it, and after a step every address the
host did not write holds what it held. That no command's cycle touches the model's list of unstable addresses either is
said of log entry 4. -/
def Obligations.NothingButTheHostWritesTheSampleMemory : Prop :=
  (∀ (i : Instr) (s t : State), exec i s = .next t → t.mem = s.mem ∧ t.unstable = s.unstable) ∧
  (∀ (s t : State) (a : Nat), step s = .next t → (∀ c ∈ s.pins.memWrites, c.1 ≠ a) →
    Memory.read t.mem a = Memory.read s.mem a)

/-- R69, R245, with the model's form of a draw (log entry 4): a host write below LEN during a mapper-mode frame makes
every later read of the address a draw, and other writes do not. -/
def Obligations.HostWriteDuringAFrameMakesReadsDraws : Prop :=
  (∀ (s : State) (a : Nat) (b : Byte), s.mapperFrame = true → a < s.len.toNat →
    (hostWrite s (a, b)).isUnstable a = true) ∧
  (∀ (s : State) (a : Nat) (b : Byte), (s.mapperFrame = false ∨ s.len.toNat ≤ a) →
    (hostWrite s (a, b)).isUnstable a = false ∧ byteAt (hostWrite s (a, b)).mem a = b) ∧
  (∀ s : State, s.state = .fetch → s.isUnstable s.readAddr.toNat = true →
    ownCycle s = acceptSample (Config.drawByte s.draws) { s with draws := s.draws + 1 })

/-! Time. -/

/-- R139, R161, R218: the own action of PAUSE counts PAUSECNT down, on the last cycle resumes and completes the Pause event,
and changes nothing else; so the pause lasts exactly as many cycles as PAUSECNT says, whatever the sink answers and
whatever words that are no error are offered, CLEAR among them. -/
def Obligations.PauseLastsExactlyItsCount : Prop :=
  (∀ s : State, s.state = .pause →
    (s.pauseCnt ≠ 1 → ownCycle s = { s with pauseCnt := s.pauseCnt - 1 }) ∧
    (s.pauseCnt = 1 →
      ownCycle s =
        { s with
          pauseCnt := 0, trace := s.trace ++ [.pause], state := if s.eoi = true then .endFl else .run })) ∧
  ∀ (s : State) (n : Nat), s.state = .pause → s.everReset = true → s.pauseCnt.toNat = n + 1 →
    (∀ p ∈ s.inputs.take (n + 1), p.rst = false ∧ writesInRange s.params p.memWrites = true ∧
      (p.cmdValid = true → ∀ c, verdict (decode p.cmdWord).opcode .pause s.cfgSrc ≠ .error c)) →
    (∀ k ≤ n, ∃ t, Sys2Proof.core.run k s = .next t ∧ t.state = .pause ∧ t.pauseCnt.toNat = n + 1 - k ∧
      t.trace = s.trace) ∧
    ∃ t, Sys2Proof.core.run (n + 1) s = .next t ∧ t.pauseCnt = 0 ∧ t.trace = s.trace ++ [.pause] ∧
      t.state = (if s.eoi = true then .endFl else .run)

/-- R236: with a sink that never answers, or a stream-mode host that sends nothing but NOP and CLEAR, the machine waits
where it is, for as long as the input lasts: no error, no event, no change. -/
def Obligations.UnansweredWaitsChangeNothing : Prop :=
  ∀ (s : State) (k : Nat), s.everReset = true →
    ((s.state.offersByte = true ∨ s.state.requestsFlush = true) ∨ (s.state = .run ∧ s.cfgSrc = true)) →
    (∀ p ∈ s.inputs.take k, p.rst = false ∧ p.memWrites = [] ∧ p.writeAnswer = .wait ∧ p.flushAnswer = .wait ∧
      (p.cmdValid = true → decode p.cmdWord = .nop ∨ decode p.cmdWord = .clear)) →
    Sys2Proof.core.run k s = .next { s with inputs := s.inputs.drop k }

/-- R247: after a START that passes its check in mapper mode, `cyclesLeft` is the closed count of the rule less the
START cycle: 14 + 2N + P + ⌊P/8⌋·(2 + PAUSE_CYCLES). -/
def Obligations.StartedMapperFrameHasTheCycleCount : Prop :=
  ∀ s t : State, s.state = .idle → s.cfgSrc = false → s.preOk = true → exec .start s = .next t →
    t.cyclesLeft =
      14 + 2 * s.frameIdx.length + payloadBytes s.frameIdx.length s.cfgTail +
        payloadBytes s.frameIdx.length s.cfgTail / 8 * (2 + s.params.pauseCycles.toNat)

/-- R236, R247: in a running mapper-mode frame, each cycle of an ideal sink without a command brings the end one cycle
nearer and raises no error. -/
def Obligations.IdealSinkCycleCountsDown : Prop :=
  ∀ s : State, Inv s → Runs s → s.mapperFrame = true → IdealSink s → QuietPort s →
    ∃ t, step s = .next t ∧ t.cyclesLeft + 1 = s.cyclesLeft ∧ t.state ≠ .error

/-! The mapper sequence (40_mapper.md). -/

/-- R109 item 1: the square case with MAPLIT = 0: n² indices, the k-th n·(k mod n) + n − 1 − (k div n). -/
def Obligations.SquareMapperSequenceClosedForm : Prop :=
  ∀ n : Nat, mapperIdx n n (n * n) 1 = (List.range (n * n)).map fun k => n * (k % n) + n - 1 - k / n

/-- R109 item 2: every address 0 to n² − 1 appears exactly once. -/
def Obligations.SquareMapperVisitsEveryAddressOnce : Prop :=
  ∀ n : Nat, (mapperIdx n n (n * n) 1).Perm (List.range (n * n))

/-- R110: the square case with MAPLIT = 1, the literal text: n − 1 indices n, 2n, ..., (n−1)·n. -/
def Obligations.LiteralMapperSequenceClosedForm : Prop :=
  ∀ n : Nat, mapperIdx n n (n * n) 0 = (List.range (n - 1)).map fun k => (k + 1) * n

/-- R108, R112: under the length precondition the bound on the loop's iterations never cuts the sequence short: a
larger bound gives the same list, and every index in it is below L. -/
def Obligations.MapperSequenceIsCompleteAndInBounds : Prop :=
  ∀ (W H b extra : Nat), b ≤ 1 →
    mapperIdxFrom W H (W * H) b (mapperFuel H + extra) 0 0 = mapperIdx W H (W * H) b ∧
    ∀ i ∈ mapperIdx W H (W * H) b, i < W * H

/-- R111, the spec's own inference from R103 and R107: the index of the next cursor position from the index of this one, without a multiplier. -/
def Obligations.IndexHasAnIncrementalForm : Prop :=
  ∀ W H b x y : Nat,
    mapIndex W H b 0 0 = (H : Int) - b ∧
    mapIndex W H b (advance H x y).1 (advance H x y).2 =
      if x + 1 = H then (H : Int) - b - (y + 1) else mapIndex W H b x y + W

/-! The frame function (41_packer.md). -/

/-- R145, R149, R147: the frame is the preamble and its flush, then each payload byte from its eight lanes with the
block work after every eighth, then the trailing flush. -/
def Obligations.FrameIsItsLanesAndBlocks : Prop :=
  ∀ (samples : List Byte) (pad : Bool), frame samples pad = frameByLanes samples pad

/-- R146: the counts of a frame of N samples. -/
def Obligations.FrameCounts : Prop :=
  ∀ (samples : List Byte) (pad : Bool),
    byteCount (frame samples pad) = 11 + payloadBytes samples.length pad + payloadBytes samples.length pad / 8 ∧
    flushCount (frame samples pad) = 2 + payloadBytes samples.length pad / 8 ∧
    pauseCount (frame samples pad) = payloadBytes samples.length pad / 8

/-! The invariants every step keeps. -/

/-- R48 (as R205 leaves the registers in ERROR, log entry 9), R112: the register invariants. -/
def Obligations.StepKeepsTheRegisterInvariants : Prop :=
  ∀ s t : State, RegInv s → step s = .next t → RegInv t

/-- The memory keeps its canonical form (log entry 3). -/
def Obligations.StepKeepsTheMemoryCanonical : Prop :=
  ∀ s t : State, MemInv s → step s = .next t → MemInv t

/-- R163, R207, R16: the sequencer carries out the frame function, whatever the sink answers and whatever commands
come. A frame that an error aborts has a prefix of the frame function's trace under CFG.TAIL; and the step that completes
a frame leaves the frame function's trace under CFG.TAIL, in mapper and in stream mode. -/
def Obligations.StepKeepsTheFrameRelation : Prop :=
  ∀ s t : State, RegInv s → FrameInv s → step s = .next t →
    FrameInv t ∧
    (s.state = .endFl → t.done = true → t.state = .idle ∧ t.taken = s.taken ∧ t.trace = frame t.taken t.cfgTail)

/-- R68 item 1, R106, R130: the mapper carries out the mapper sequence over a stable buffer. That the buffer is stable is
said of the model's `unstable` list, whose marks outlive a frame (log entry 4), and the samples the packer took are the
model's list `taken` (log entry 14). -/
def Obligations.StepKeepsTheMapperRelation : Prop :=
  ∀ s t : State, RegInv s → MapperInv s → step s = .next t → MapperInv t

/-- R130, R163, R235: when the trailing flush of a mapper-mode frame over a stable buffer completes, the frame's trace
is `frame(mapper_seq(M, WIDTH, HEIGHT, LEN, 1 - MAPLIT), CFG.TAIL)`, and DONE is set in IDLE. That the buffer is stable is
said of the model's `unstable` list (log entry 4). -/
def Obligations.CompletedMapperFrameTrace : Prop :=
  ∀ s : State, Inv s → Runs s → QuietPort s → s.state = .endFl → s.cfgSrc = false → StableBuffer s →
    s.pins.flushAnswer = .ok →
    ∃ t, step s = .next t ∧ t.state = .idle ∧ t.done = true ∧
      t.trace = frame (mapperSeq s.mem s.width.toNat s.height.toNat s.len.toNat s.offsetB) s.cfgTail
end

