-- ==== Sys2Proof/Laws/State.lean ====
section
/-! SUPPORT. What each named update of the state does to each field: one lemma per field per update. -/

namespace Sys2Proof.Machine

/-! The end of a cycle. -/

@[simp] theorem endCycle_params (s : State) : (endCycle s).params = s.params := rfl
@[simp] theorem endCycle_state (s : State) : (endCycle s).state = s.state := rfl
@[simp] theorem endCycle_acc (s : State) : (endCycle s).acc = s.acc := rfl
@[simp] theorem endCycle_bitCnt (s : State) : (endCycle s).bitCnt = s.bitCnt := rfl
@[simp] theorem endCycle_byteCnt (s : State) : (endCycle s).byteCnt = s.byteCnt := rfl
@[simp] theorem endCycle_preCnt (s : State) : (endCycle s).preCnt = s.preCnt := rfl
@[simp] theorem endCycle_eoi (s : State) : (endCycle s).eoi = s.eoi := rfl
@[simp] theorem endCycle_done (s : State) : (endCycle s).done = s.done := rfl
@[simp] theorem endCycle_err (s : State) : (endCycle s).err = s.err := rfl
@[simp] theorem endCycle_errState (s : State) : (endCycle s).errState = s.errState := rfl
@[simp] theorem endCycle_width (s : State) : (endCycle s).width = s.width := rfl
@[simp] theorem endCycle_height (s : State) : (endCycle s).height = s.height := rfl
@[simp] theorem endCycle_len (s : State) : (endCycle s).len = s.len := rfl
@[simp] theorem endCycle_cfg (s : State) : (endCycle s).cfg = s.cfg := rfl
@[simp] theorem endCycle_curX (s : State) : (endCycle s).curX = s.curX := rfl
@[simp] theorem endCycle_curY (s : State) : (endCycle s).curY = s.curY := rfl
@[simp] theorem endCycle_pauseCnt (s : State) : (endCycle s).pauseCnt = s.pauseCnt := rfl
@[simp] theorem endCycle_samples (s : State) : (endCycle s).samples = s.samples := rfl
@[simp] theorem endCycle_txBytes (s : State) : (endCycle s).txBytes = s.txBytes := rfl
@[simp] theorem endCycle_blocks (s : State) : (endCycle s).blocks = s.blocks := rfl
@[simp] theorem endCycle_tailBits (s : State) : (endCycle s).tailBits = s.tailBits := rfl
@[simp] theorem endCycle_tailEmit (s : State) : (endCycle s).tailEmit = s.tailEmit := rfl
@[simp] theorem endCycle_mem (s : State) : (endCycle s).mem = s.mem := rfl
@[simp] theorem endCycle_unstable (s : State) : (endCycle s).unstable = s.unstable := rfl
@[simp] theorem endCycle_readAddr (s : State) : (endCycle s).readAddr = s.readAddr := rfl
@[simp] theorem endCycle_draws (s : State) : (endCycle s).draws = s.draws := rfl
@[simp] theorem endCycle_everReset (s : State) : (endCycle s).everReset = s.everReset := rfl
@[simp] theorem endCycle_inputs (s : State) : (endCycle s).inputs = s.inputs.tail := rfl
@[simp] theorem endCycle_trace (s : State) : (endCycle s).trace = s.trace := rfl
@[simp] theorem endCycle_taken (s : State) : (endCycle s).taken = s.taken := rfl

/-! `emit(e)` (R13). -/

@[simp] theorem emitEvent_params (e : Event) (s : State) : (emitEvent e s).params = s.params := rfl
@[simp] theorem emitEvent_state (e : Event) (s : State) : (emitEvent e s).state = s.state := rfl
@[simp] theorem emitEvent_acc (e : Event) (s : State) : (emitEvent e s).acc = s.acc := rfl
@[simp] theorem emitEvent_bitCnt (e : Event) (s : State) : (emitEvent e s).bitCnt = s.bitCnt := rfl
@[simp] theorem emitEvent_byteCnt (e : Event) (s : State) : (emitEvent e s).byteCnt = s.byteCnt := rfl
@[simp] theorem emitEvent_preCnt (e : Event) (s : State) : (emitEvent e s).preCnt = s.preCnt := rfl
@[simp] theorem emitEvent_eoi (e : Event) (s : State) : (emitEvent e s).eoi = s.eoi := rfl
@[simp] theorem emitEvent_done (e : Event) (s : State) : (emitEvent e s).done = s.done := rfl
@[simp] theorem emitEvent_err (e : Event) (s : State) : (emitEvent e s).err = s.err := rfl
@[simp] theorem emitEvent_errState (e : Event) (s : State) : (emitEvent e s).errState = s.errState := rfl
@[simp] theorem emitEvent_width (e : Event) (s : State) : (emitEvent e s).width = s.width := rfl
@[simp] theorem emitEvent_height (e : Event) (s : State) : (emitEvent e s).height = s.height := rfl
@[simp] theorem emitEvent_len (e : Event) (s : State) : (emitEvent e s).len = s.len := rfl
@[simp] theorem emitEvent_cfg (e : Event) (s : State) : (emitEvent e s).cfg = s.cfg := rfl
@[simp] theorem emitEvent_curX (e : Event) (s : State) : (emitEvent e s).curX = s.curX := rfl
@[simp] theorem emitEvent_curY (e : Event) (s : State) : (emitEvent e s).curY = s.curY := rfl
@[simp] theorem emitEvent_pauseCnt (e : Event) (s : State) : (emitEvent e s).pauseCnt = s.pauseCnt := rfl
@[simp] theorem emitEvent_samples (e : Event) (s : State) : (emitEvent e s).samples = s.samples := rfl
@[simp] theorem emitEvent_txBytes (e : Event) (s : State) : (emitEvent e s).txBytes = s.txBytes := rfl
@[simp] theorem emitEvent_blocks (e : Event) (s : State) : (emitEvent e s).blocks = s.blocks := rfl
@[simp] theorem emitEvent_tailBits (e : Event) (s : State) : (emitEvent e s).tailBits = s.tailBits := rfl
@[simp] theorem emitEvent_tailEmit (e : Event) (s : State) : (emitEvent e s).tailEmit = s.tailEmit := rfl
@[simp] theorem emitEvent_mem (e : Event) (s : State) : (emitEvent e s).mem = s.mem := rfl
@[simp] theorem emitEvent_unstable (e : Event) (s : State) : (emitEvent e s).unstable = s.unstable := rfl
@[simp] theorem emitEvent_readAddr (e : Event) (s : State) : (emitEvent e s).readAddr = s.readAddr := rfl
@[simp] theorem emitEvent_draws (e : Event) (s : State) : (emitEvent e s).draws = s.draws := rfl
@[simp] theorem emitEvent_everReset (e : Event) (s : State) : (emitEvent e s).everReset = s.everReset := rfl
@[simp] theorem emitEvent_inputs (e : Event) (s : State) : (emitEvent e s).inputs = s.inputs := rfl
@[simp] theorem emitEvent_trace (e : Event) (s : State) : (emitEvent e s).trace = s.trace ++ [e] := rfl
@[simp] theorem emitEvent_taken (e : Event) (s : State) : (emitEvent e s).taken = s.taken := rfl

/-! `raise Error` (R205). -/

@[simp] theorem raiseError_params (c : ErrCode) (q : SeqState) (s : State) : (raiseError c q s).params = s.params := rfl
@[simp] theorem raiseError_state (c : ErrCode) (q : SeqState) (s : State) : (raiseError c q s).state = .error := rfl
@[simp] theorem raiseError_acc (c : ErrCode) (q : SeqState) (s : State) : (raiseError c q s).acc = s.acc := rfl
@[simp] theorem raiseError_bitCnt (c : ErrCode) (q : SeqState) (s : State) : (raiseError c q s).bitCnt = s.bitCnt := rfl
@[simp] theorem raiseError_byteCnt (c : ErrCode) (q : SeqState) (s : State) : (raiseError c q s).byteCnt = s.byteCnt := rfl
@[simp] theorem raiseError_preCnt (c : ErrCode) (q : SeqState) (s : State) : (raiseError c q s).preCnt = s.preCnt := rfl
@[simp] theorem raiseError_eoi (c : ErrCode) (q : SeqState) (s : State) : (raiseError c q s).eoi = s.eoi := rfl
@[simp] theorem raiseError_done (c : ErrCode) (q : SeqState) (s : State) : (raiseError c q s).done = false := rfl
@[simp] theorem raiseError_err (c : ErrCode) (q : SeqState) (s : State) : (raiseError c q s).err = c := rfl
@[simp] theorem raiseError_errState (c : ErrCode) (q : SeqState) (s : State) : (raiseError c q s).errState = q := rfl
@[simp] theorem raiseError_width (c : ErrCode) (q : SeqState) (s : State) : (raiseError c q s).width = s.width := rfl
@[simp] theorem raiseError_height (c : ErrCode) (q : SeqState) (s : State) : (raiseError c q s).height = s.height := rfl
@[simp] theorem raiseError_len (c : ErrCode) (q : SeqState) (s : State) : (raiseError c q s).len = s.len := rfl
@[simp] theorem raiseError_cfg (c : ErrCode) (q : SeqState) (s : State) : (raiseError c q s).cfg = s.cfg := rfl
@[simp] theorem raiseError_curX (c : ErrCode) (q : SeqState) (s : State) : (raiseError c q s).curX = s.curX := rfl
@[simp] theorem raiseError_curY (c : ErrCode) (q : SeqState) (s : State) : (raiseError c q s).curY = s.curY := rfl
@[simp] theorem raiseError_pauseCnt (c : ErrCode) (q : SeqState) (s : State) : (raiseError c q s).pauseCnt = s.pauseCnt := rfl
@[simp] theorem raiseError_samples (c : ErrCode) (q : SeqState) (s : State) : (raiseError c q s).samples = s.samples := rfl
@[simp] theorem raiseError_txBytes (c : ErrCode) (q : SeqState) (s : State) : (raiseError c q s).txBytes = s.txBytes := rfl
@[simp] theorem raiseError_blocks (c : ErrCode) (q : SeqState) (s : State) : (raiseError c q s).blocks = s.blocks := rfl
@[simp] theorem raiseError_tailBits (c : ErrCode) (q : SeqState) (s : State) : (raiseError c q s).tailBits = s.tailBits := rfl
@[simp] theorem raiseError_tailEmit (c : ErrCode) (q : SeqState) (s : State) : (raiseError c q s).tailEmit = s.tailEmit := rfl
@[simp] theorem raiseError_mem (c : ErrCode) (q : SeqState) (s : State) : (raiseError c q s).mem = s.mem := rfl
@[simp] theorem raiseError_unstable (c : ErrCode) (q : SeqState) (s : State) : (raiseError c q s).unstable = s.unstable := rfl
@[simp] theorem raiseError_readAddr (c : ErrCode) (q : SeqState) (s : State) : (raiseError c q s).readAddr = s.readAddr := rfl
@[simp] theorem raiseError_draws (c : ErrCode) (q : SeqState) (s : State) : (raiseError c q s).draws = s.draws := rfl
@[simp] theorem raiseError_everReset (c : ErrCode) (q : SeqState) (s : State) : (raiseError c q s).everReset = s.everReset := rfl
@[simp] theorem raiseError_inputs (c : ErrCode) (q : SeqState) (s : State) : (raiseError c q s).inputs = s.inputs := rfl
@[simp] theorem raiseError_trace (c : ErrCode) (q : SeqState) (s : State) : (raiseError c q s).trace = s.trace := rfl
@[simp] theorem raiseError_taken (c : ErrCode) (q : SeqState) (s : State) : (raiseError c q s).taken = s.taken := rfl

/-! What CLEAR writes (R180). -/

@[simp] theorem clearRegisters_params (s : State) : (clearRegisters s).params = s.params := rfl
@[simp] theorem clearRegisters_state (s : State) : (clearRegisters s).state = .idle := rfl
@[simp] theorem clearRegisters_acc (s : State) : (clearRegisters s).acc = 0 := rfl
@[simp] theorem clearRegisters_bitCnt (s : State) : (clearRegisters s).bitCnt = 0 := rfl
@[simp] theorem clearRegisters_byteCnt (s : State) : (clearRegisters s).byteCnt = 0 := rfl
@[simp] theorem clearRegisters_preCnt (s : State) : (clearRegisters s).preCnt = 0 := rfl
@[simp] theorem clearRegisters_eoi (s : State) : (clearRegisters s).eoi = false := rfl
@[simp] theorem clearRegisters_done (s : State) : (clearRegisters s).done = false := rfl
@[simp] theorem clearRegisters_err (s : State) : (clearRegisters s).err = .noError := rfl
@[simp] theorem clearRegisters_errState (s : State) : (clearRegisters s).errState = .idle := rfl
@[simp] theorem clearRegisters_width (s : State) : (clearRegisters s).width = s.width := rfl
@[simp] theorem clearRegisters_height (s : State) : (clearRegisters s).height = s.height := rfl
@[simp] theorem clearRegisters_len (s : State) : (clearRegisters s).len = s.len := rfl
@[simp] theorem clearRegisters_cfg (s : State) : (clearRegisters s).cfg = s.cfg := rfl
@[simp] theorem clearRegisters_curX (s : State) : (clearRegisters s).curX = 0 := rfl
@[simp] theorem clearRegisters_curY (s : State) : (clearRegisters s).curY = 0 := rfl
@[simp] theorem clearRegisters_pauseCnt (s : State) : (clearRegisters s).pauseCnt = 0 := rfl
@[simp] theorem clearRegisters_samples (s : State) : (clearRegisters s).samples = s.samples := rfl
@[simp] theorem clearRegisters_txBytes (s : State) : (clearRegisters s).txBytes = s.txBytes := rfl
@[simp] theorem clearRegisters_blocks (s : State) : (clearRegisters s).blocks = s.blocks := rfl
@[simp] theorem clearRegisters_tailBits (s : State) : (clearRegisters s).tailBits = s.tailBits := rfl
@[simp] theorem clearRegisters_tailEmit (s : State) : (clearRegisters s).tailEmit = s.tailEmit := rfl
@[simp] theorem clearRegisters_mem (s : State) : (clearRegisters s).mem = s.mem := rfl
@[simp] theorem clearRegisters_unstable (s : State) : (clearRegisters s).unstable = s.unstable := rfl
@[simp] theorem clearRegisters_readAddr (s : State) : (clearRegisters s).readAddr = s.readAddr := rfl
@[simp] theorem clearRegisters_draws (s : State) : (clearRegisters s).draws = s.draws := rfl
@[simp] theorem clearRegisters_everReset (s : State) : (clearRegisters s).everReset = s.everReset := rfl
@[simp] theorem clearRegisters_inputs (s : State) : (clearRegisters s).inputs = s.inputs := rfl
@[simp] theorem clearRegisters_trace (s : State) : (clearRegisters s).trace = s.trace := rfl
@[simp] theorem clearRegisters_taken (s : State) : (clearRegisters s).taken = s.taken := rfl

/-! What START clears (R177). -/

@[simp] theorem clearFrame_params (s : State) : (clearFrame s).params = s.params := rfl
@[simp] theorem clearFrame_state (s : State) : (clearFrame s).state = s.state := rfl
@[simp] theorem clearFrame_acc (s : State) : (clearFrame s).acc = 0 := rfl
@[simp] theorem clearFrame_bitCnt (s : State) : (clearFrame s).bitCnt = 0 := rfl
@[simp] theorem clearFrame_byteCnt (s : State) : (clearFrame s).byteCnt = 0 := rfl
@[simp] theorem clearFrame_preCnt (s : State) : (clearFrame s).preCnt = 0 := rfl
@[simp] theorem clearFrame_eoi (s : State) : (clearFrame s).eoi = false := rfl
@[simp] theorem clearFrame_done (s : State) : (clearFrame s).done = false := rfl
@[simp] theorem clearFrame_err (s : State) : (clearFrame s).err = s.err := rfl
@[simp] theorem clearFrame_errState (s : State) : (clearFrame s).errState = s.errState := rfl
@[simp] theorem clearFrame_width (s : State) : (clearFrame s).width = s.width := rfl
@[simp] theorem clearFrame_height (s : State) : (clearFrame s).height = s.height := rfl
@[simp] theorem clearFrame_len (s : State) : (clearFrame s).len = s.len := rfl
@[simp] theorem clearFrame_cfg (s : State) : (clearFrame s).cfg = s.cfg := rfl
@[simp] theorem clearFrame_curX (s : State) : (clearFrame s).curX = 0 := rfl
@[simp] theorem clearFrame_curY (s : State) : (clearFrame s).curY = 0 := rfl
@[simp] theorem clearFrame_pauseCnt (s : State) : (clearFrame s).pauseCnt = 0 := rfl
@[simp] theorem clearFrame_samples (s : State) : (clearFrame s).samples = 0 := rfl
@[simp] theorem clearFrame_txBytes (s : State) : (clearFrame s).txBytes = 0 := rfl
@[simp] theorem clearFrame_blocks (s : State) : (clearFrame s).blocks = 0 := rfl
@[simp] theorem clearFrame_tailBits (s : State) : (clearFrame s).tailBits = 0 := rfl
@[simp] theorem clearFrame_tailEmit (s : State) : (clearFrame s).tailEmit = false := rfl
@[simp] theorem clearFrame_mem (s : State) : (clearFrame s).mem = s.mem := rfl
@[simp] theorem clearFrame_unstable (s : State) : (clearFrame s).unstable = s.unstable := rfl
@[simp] theorem clearFrame_readAddr (s : State) : (clearFrame s).readAddr = s.readAddr := rfl
@[simp] theorem clearFrame_draws (s : State) : (clearFrame s).draws = s.draws := rfl
@[simp] theorem clearFrame_everReset (s : State) : (clearFrame s).everReset = s.everReset := rfl
@[simp] theorem clearFrame_inputs (s : State) : (clearFrame s).inputs = s.inputs := rfl
@[simp] theorem clearFrame_trace (s : State) : (clearFrame s).trace = [] := rfl
@[simp] theorem clearFrame_taken (s : State) : (clearFrame s).taken = [] := rfl

/-! A reset edge (R230). -/

@[simp] theorem resetRegisters_params (s : State) : (resetRegisters s).params = s.params := rfl
@[simp] theorem resetRegisters_state (s : State) : (resetRegisters s).state = .idle := rfl
@[simp] theorem resetRegisters_acc (s : State) : (resetRegisters s).acc = 0 := rfl
@[simp] theorem resetRegisters_bitCnt (s : State) : (resetRegisters s).bitCnt = 0 := rfl
@[simp] theorem resetRegisters_byteCnt (s : State) : (resetRegisters s).byteCnt = 0 := rfl
@[simp] theorem resetRegisters_preCnt (s : State) : (resetRegisters s).preCnt = 0 := rfl
@[simp] theorem resetRegisters_eoi (s : State) : (resetRegisters s).eoi = false := rfl
@[simp] theorem resetRegisters_done (s : State) : (resetRegisters s).done = false := rfl
@[simp] theorem resetRegisters_err (s : State) : (resetRegisters s).err = .noError := rfl
@[simp] theorem resetRegisters_errState (s : State) : (resetRegisters s).errState = .idle := rfl
@[simp] theorem resetRegisters_width (s : State) : (resetRegisters s).width = 64 := rfl
@[simp] theorem resetRegisters_height (s : State) : (resetRegisters s).height = 64 := rfl
@[simp] theorem resetRegisters_len (s : State) : (resetRegisters s).len = 4096 := rfl
@[simp] theorem resetRegisters_cfg (s : State) : (resetRegisters s).cfg = 0 := rfl
@[simp] theorem resetRegisters_curX (s : State) : (resetRegisters s).curX = 0 := rfl
@[simp] theorem resetRegisters_curY (s : State) : (resetRegisters s).curY = 0 := rfl
@[simp] theorem resetRegisters_pauseCnt (s : State) : (resetRegisters s).pauseCnt = 0 := rfl
@[simp] theorem resetRegisters_samples (s : State) : (resetRegisters s).samples = 0 := rfl
@[simp] theorem resetRegisters_txBytes (s : State) : (resetRegisters s).txBytes = 0 := rfl
@[simp] theorem resetRegisters_blocks (s : State) : (resetRegisters s).blocks = 0 := rfl
@[simp] theorem resetRegisters_tailBits (s : State) : (resetRegisters s).tailBits = 0 := rfl
@[simp] theorem resetRegisters_tailEmit (s : State) : (resetRegisters s).tailEmit = false := rfl
@[simp] theorem resetRegisters_mem (s : State) : (resetRegisters s).mem = s.mem := rfl
@[simp] theorem resetRegisters_unstable (s : State) : (resetRegisters s).unstable = s.unstable := rfl
@[simp] theorem resetRegisters_readAddr (s : State) : (resetRegisters s).readAddr = s.readAddr := rfl
@[simp] theorem resetRegisters_draws (s : State) : (resetRegisters s).draws = s.draws := rfl
@[simp] theorem resetRegisters_everReset (s : State) : (resetRegisters s).everReset = true := rfl
@[simp] theorem resetRegisters_inputs (s : State) : (resetRegisters s).inputs = s.inputs := rfl
@[simp] theorem resetRegisters_trace (s : State) : (resetRegisters s).trace = [] := rfl
@[simp] theorem resetRegisters_taken (s : State) : (resetRegisters s).taken = [] := rfl

/-! The mapper step (R106). -/

@[simp] theorem mapperStep_params (s : State) : (mapperStep s).params = s.params := rfl
@[simp] theorem mapperStep_state (s : State) : (mapperStep s).state = .fetch := rfl
@[simp] theorem mapperStep_acc (s : State) : (mapperStep s).acc = s.acc := rfl
@[simp] theorem mapperStep_bitCnt (s : State) : (mapperStep s).bitCnt = s.bitCnt := rfl
@[simp] theorem mapperStep_byteCnt (s : State) : (mapperStep s).byteCnt = s.byteCnt := rfl
@[simp] theorem mapperStep_preCnt (s : State) : (mapperStep s).preCnt = s.preCnt := rfl
@[simp] theorem mapperStep_eoi (s : State) : (mapperStep s).eoi = s.eoi := rfl
@[simp] theorem mapperStep_done (s : State) : (mapperStep s).done = s.done := rfl
@[simp] theorem mapperStep_err (s : State) : (mapperStep s).err = s.err := rfl
@[simp] theorem mapperStep_errState (s : State) : (mapperStep s).errState = s.errState := rfl
@[simp] theorem mapperStep_width (s : State) : (mapperStep s).width = s.width := rfl
@[simp] theorem mapperStep_height (s : State) : (mapperStep s).height = s.height := rfl
@[simp] theorem mapperStep_len (s : State) : (mapperStep s).len = s.len := rfl
@[simp] theorem mapperStep_cfg (s : State) : (mapperStep s).cfg = s.cfg := rfl
@[simp] theorem mapperStep_curX (s : State) : (mapperStep s).curX = cursorValue s.params (advance s.height.toNat s.curX.toNat s.curY.toNat).1 := rfl
@[simp] theorem mapperStep_curY (s : State) : (mapperStep s).curY = cursorValue s.params (advance s.height.toNat s.curX.toNat s.curY.toNat).2 := rfl
@[simp] theorem mapperStep_pauseCnt (s : State) : (mapperStep s).pauseCnt = s.pauseCnt := rfl
@[simp] theorem mapperStep_samples (s : State) : (mapperStep s).samples = s.samples := rfl
@[simp] theorem mapperStep_txBytes (s : State) : (mapperStep s).txBytes = s.txBytes := rfl
@[simp] theorem mapperStep_blocks (s : State) : (mapperStep s).blocks = s.blocks := rfl
@[simp] theorem mapperStep_tailBits (s : State) : (mapperStep s).tailBits = s.tailBits := rfl
@[simp] theorem mapperStep_tailEmit (s : State) : (mapperStep s).tailEmit = s.tailEmit := rfl
@[simp] theorem mapperStep_mem (s : State) : (mapperStep s).mem = s.mem := rfl
@[simp] theorem mapperStep_unstable (s : State) : (mapperStep s).unstable = s.unstable := rfl
@[simp] theorem mapperStep_readAddr (s : State) : (mapperStep s).readAddr = addrValue s.params s.index.toNat := rfl
@[simp] theorem mapperStep_draws (s : State) : (mapperStep s).draws = s.draws := rfl
@[simp] theorem mapperStep_everReset (s : State) : (mapperStep s).everReset = s.everReset := rfl
@[simp] theorem mapperStep_inputs (s : State) : (mapperStep s).inputs = s.inputs := rfl
@[simp] theorem mapperStep_trace (s : State) : (mapperStep s).trace = s.trace := rfl
@[simp] theorem mapperStep_taken (s : State) : (mapperStep s).taken = s.taken := rfl

/-! The pack step (R132). -/

@[simp] theorem acceptSample_params (b : Byte) (s : State) : (acceptSample b s).params = s.params := rfl
@[simp] theorem acceptSample_state (b : Byte) (s : State) : (acceptSample b s).state = if s.bitCnt = 7 then .emit else .run := rfl
@[simp] theorem acceptSample_acc (b : Byte) (s : State) : (acceptSample b s).acc = packBit s.acc s.bitCnt b := rfl
@[simp] theorem acceptSample_bitCnt (b : Byte) (s : State) : (acceptSample b s).bitCnt = if s.bitCnt = 7 then 8 else s.bitCnt + 1 := rfl
@[simp] theorem acceptSample_byteCnt (b : Byte) (s : State) : (acceptSample b s).byteCnt = s.byteCnt := rfl
@[simp] theorem acceptSample_preCnt (b : Byte) (s : State) : (acceptSample b s).preCnt = s.preCnt := rfl
@[simp] theorem acceptSample_eoi (b : Byte) (s : State) : (acceptSample b s).eoi = s.eoi := rfl
@[simp] theorem acceptSample_done (b : Byte) (s : State) : (acceptSample b s).done = s.done := rfl
@[simp] theorem acceptSample_err (b : Byte) (s : State) : (acceptSample b s).err = s.err := rfl
@[simp] theorem acceptSample_errState (b : Byte) (s : State) : (acceptSample b s).errState = s.errState := rfl
@[simp] theorem acceptSample_width (b : Byte) (s : State) : (acceptSample b s).width = s.width := rfl
@[simp] theorem acceptSample_height (b : Byte) (s : State) : (acceptSample b s).height = s.height := rfl
@[simp] theorem acceptSample_len (b : Byte) (s : State) : (acceptSample b s).len = s.len := rfl
@[simp] theorem acceptSample_cfg (b : Byte) (s : State) : (acceptSample b s).cfg = s.cfg := rfl
@[simp] theorem acceptSample_curX (b : Byte) (s : State) : (acceptSample b s).curX = s.curX := rfl
@[simp] theorem acceptSample_curY (b : Byte) (s : State) : (acceptSample b s).curY = s.curY := rfl
@[simp] theorem acceptSample_pauseCnt (b : Byte) (s : State) : (acceptSample b s).pauseCnt = s.pauseCnt := rfl
@[simp] theorem acceptSample_samples (b : Byte) (s : State) : (acceptSample b s).samples = s.samples + 1 := rfl
@[simp] theorem acceptSample_txBytes (b : Byte) (s : State) : (acceptSample b s).txBytes = s.txBytes := rfl
@[simp] theorem acceptSample_blocks (b : Byte) (s : State) : (acceptSample b s).blocks = s.blocks := rfl
@[simp] theorem acceptSample_tailBits (b : Byte) (s : State) : (acceptSample b s).tailBits = s.tailBits := rfl
@[simp] theorem acceptSample_tailEmit (b : Byte) (s : State) : (acceptSample b s).tailEmit = s.tailEmit := rfl
@[simp] theorem acceptSample_mem (b : Byte) (s : State) : (acceptSample b s).mem = s.mem := rfl
@[simp] theorem acceptSample_unstable (b : Byte) (s : State) : (acceptSample b s).unstable = s.unstable := rfl
@[simp] theorem acceptSample_readAddr (b : Byte) (s : State) : (acceptSample b s).readAddr = s.readAddr := rfl
@[simp] theorem acceptSample_draws (b : Byte) (s : State) : (acceptSample b s).draws = s.draws := rfl
@[simp] theorem acceptSample_everReset (b : Byte) (s : State) : (acceptSample b s).everReset = s.everReset := rfl
@[simp] theorem acceptSample_inputs (b : Byte) (s : State) : (acceptSample b s).inputs = s.inputs := rfl
@[simp] theorem acceptSample_trace (b : Byte) (s : State) : (acceptSample b s).trace = s.trace := rfl
@[simp] theorem acceptSample_taken (b : Byte) (s : State) : (acceptSample b s).taken = s.taken ++ [b] := rfl

/-! One host write (R61, R69). -/

@[simp] theorem hostWrite_params (s : State) (c : Host.Cell) : (hostWrite s c).params = s.params := rfl
@[simp] theorem hostWrite_state (s : State) (c : Host.Cell) : (hostWrite s c).state = s.state := rfl
@[simp] theorem hostWrite_acc (s : State) (c : Host.Cell) : (hostWrite s c).acc = s.acc := rfl
@[simp] theorem hostWrite_bitCnt (s : State) (c : Host.Cell) : (hostWrite s c).bitCnt = s.bitCnt := rfl
@[simp] theorem hostWrite_byteCnt (s : State) (c : Host.Cell) : (hostWrite s c).byteCnt = s.byteCnt := rfl
@[simp] theorem hostWrite_preCnt (s : State) (c : Host.Cell) : (hostWrite s c).preCnt = s.preCnt := rfl
@[simp] theorem hostWrite_eoi (s : State) (c : Host.Cell) : (hostWrite s c).eoi = s.eoi := rfl
@[simp] theorem hostWrite_done (s : State) (c : Host.Cell) : (hostWrite s c).done = s.done := rfl
@[simp] theorem hostWrite_err (s : State) (c : Host.Cell) : (hostWrite s c).err = s.err := rfl
@[simp] theorem hostWrite_errState (s : State) (c : Host.Cell) : (hostWrite s c).errState = s.errState := rfl
@[simp] theorem hostWrite_width (s : State) (c : Host.Cell) : (hostWrite s c).width = s.width := rfl
@[simp] theorem hostWrite_height (s : State) (c : Host.Cell) : (hostWrite s c).height = s.height := rfl
@[simp] theorem hostWrite_len (s : State) (c : Host.Cell) : (hostWrite s c).len = s.len := rfl
@[simp] theorem hostWrite_cfg (s : State) (c : Host.Cell) : (hostWrite s c).cfg = s.cfg := rfl
@[simp] theorem hostWrite_curX (s : State) (c : Host.Cell) : (hostWrite s c).curX = s.curX := rfl
@[simp] theorem hostWrite_curY (s : State) (c : Host.Cell) : (hostWrite s c).curY = s.curY := rfl
@[simp] theorem hostWrite_pauseCnt (s : State) (c : Host.Cell) : (hostWrite s c).pauseCnt = s.pauseCnt := rfl
@[simp] theorem hostWrite_samples (s : State) (c : Host.Cell) : (hostWrite s c).samples = s.samples := rfl
@[simp] theorem hostWrite_txBytes (s : State) (c : Host.Cell) : (hostWrite s c).txBytes = s.txBytes := rfl
@[simp] theorem hostWrite_blocks (s : State) (c : Host.Cell) : (hostWrite s c).blocks = s.blocks := rfl
@[simp] theorem hostWrite_tailBits (s : State) (c : Host.Cell) : (hostWrite s c).tailBits = s.tailBits := rfl
@[simp] theorem hostWrite_tailEmit (s : State) (c : Host.Cell) : (hostWrite s c).tailEmit = s.tailEmit := rfl
@[simp] theorem hostWrite_mem (s : State) (c : Host.Cell) : (hostWrite s c).mem = Memory.write s.mem c.1 c.2 := rfl
@[simp] theorem hostWrite_unstable (s : State) (c : Host.Cell) : (hostWrite s c).unstable = if s.breaksStability c.1 then AddrSet.insert s.unstable c.1 else AddrSet.erase s.unstable c.1 := rfl
@[simp] theorem hostWrite_readAddr (s : State) (c : Host.Cell) : (hostWrite s c).readAddr = s.readAddr := rfl
@[simp] theorem hostWrite_draws (s : State) (c : Host.Cell) : (hostWrite s c).draws = s.draws := rfl
@[simp] theorem hostWrite_everReset (s : State) (c : Host.Cell) : (hostWrite s c).everReset = s.everReset := rfl
@[simp] theorem hostWrite_inputs (s : State) (c : Host.Cell) : (hostWrite s c).inputs = s.inputs := rfl
@[simp] theorem hostWrite_trace (s : State) (c : Host.Cell) : (hostWrite s c).trace = s.trace := rfl
@[simp] theorem hostWrite_taken (s : State) (c : Host.Cell) : (hostWrite s c).taken = s.taken := rfl

/-! The host's writes of a cycle touch the memory and the unstable addresses only. -/

@[simp] theorem hostWrites_params (s : State) (cs : List Host.Cell) : (hostWrites s cs).params = s.params := by
  induction cs generalizing s with
  | nil => rfl
  | cons c cs ih => simp [hostWrites, ih]
@[simp] theorem hostWrites_state (s : State) (cs : List Host.Cell) : (hostWrites s cs).state = s.state := by
  induction cs generalizing s with
  | nil => rfl
  | cons c cs ih => simp [hostWrites, ih]
@[simp] theorem hostWrites_acc (s : State) (cs : List Host.Cell) : (hostWrites s cs).acc = s.acc := by
  induction cs generalizing s with
  | nil => rfl
  | cons c cs ih => simp [hostWrites, ih]
@[simp] theorem hostWrites_bitCnt (s : State) (cs : List Host.Cell) : (hostWrites s cs).bitCnt = s.bitCnt := by
  induction cs generalizing s with
  | nil => rfl
  | cons c cs ih => simp [hostWrites, ih]
@[simp] theorem hostWrites_byteCnt (s : State) (cs : List Host.Cell) : (hostWrites s cs).byteCnt = s.byteCnt := by
  induction cs generalizing s with
  | nil => rfl
  | cons c cs ih => simp [hostWrites, ih]
@[simp] theorem hostWrites_preCnt (s : State) (cs : List Host.Cell) : (hostWrites s cs).preCnt = s.preCnt := by
  induction cs generalizing s with
  | nil => rfl
  | cons c cs ih => simp [hostWrites, ih]
@[simp] theorem hostWrites_eoi (s : State) (cs : List Host.Cell) : (hostWrites s cs).eoi = s.eoi := by
  induction cs generalizing s with
  | nil => rfl
  | cons c cs ih => simp [hostWrites, ih]
@[simp] theorem hostWrites_done (s : State) (cs : List Host.Cell) : (hostWrites s cs).done = s.done := by
  induction cs generalizing s with
  | nil => rfl
  | cons c cs ih => simp [hostWrites, ih]
@[simp] theorem hostWrites_err (s : State) (cs : List Host.Cell) : (hostWrites s cs).err = s.err := by
  induction cs generalizing s with
  | nil => rfl
  | cons c cs ih => simp [hostWrites, ih]
@[simp] theorem hostWrites_errState (s : State) (cs : List Host.Cell) : (hostWrites s cs).errState = s.errState := by
  induction cs generalizing s with
  | nil => rfl
  | cons c cs ih => simp [hostWrites, ih]
@[simp] theorem hostWrites_width (s : State) (cs : List Host.Cell) : (hostWrites s cs).width = s.width := by
  induction cs generalizing s with
  | nil => rfl
  | cons c cs ih => simp [hostWrites, ih]
@[simp] theorem hostWrites_height (s : State) (cs : List Host.Cell) : (hostWrites s cs).height = s.height := by
  induction cs generalizing s with
  | nil => rfl
  | cons c cs ih => simp [hostWrites, ih]
@[simp] theorem hostWrites_len (s : State) (cs : List Host.Cell) : (hostWrites s cs).len = s.len := by
  induction cs generalizing s with
  | nil => rfl
  | cons c cs ih => simp [hostWrites, ih]
@[simp] theorem hostWrites_cfg (s : State) (cs : List Host.Cell) : (hostWrites s cs).cfg = s.cfg := by
  induction cs generalizing s with
  | nil => rfl
  | cons c cs ih => simp [hostWrites, ih]
@[simp] theorem hostWrites_curX (s : State) (cs : List Host.Cell) : (hostWrites s cs).curX = s.curX := by
  induction cs generalizing s with
  | nil => rfl
  | cons c cs ih => simp [hostWrites, ih]
@[simp] theorem hostWrites_curY (s : State) (cs : List Host.Cell) : (hostWrites s cs).curY = s.curY := by
  induction cs generalizing s with
  | nil => rfl
  | cons c cs ih => simp [hostWrites, ih]
@[simp] theorem hostWrites_pauseCnt (s : State) (cs : List Host.Cell) : (hostWrites s cs).pauseCnt = s.pauseCnt := by
  induction cs generalizing s with
  | nil => rfl
  | cons c cs ih => simp [hostWrites, ih]
@[simp] theorem hostWrites_samples (s : State) (cs : List Host.Cell) : (hostWrites s cs).samples = s.samples := by
  induction cs generalizing s with
  | nil => rfl
  | cons c cs ih => simp [hostWrites, ih]
@[simp] theorem hostWrites_txBytes (s : State) (cs : List Host.Cell) : (hostWrites s cs).txBytes = s.txBytes := by
  induction cs generalizing s with
  | nil => rfl
  | cons c cs ih => simp [hostWrites, ih]
@[simp] theorem hostWrites_blocks (s : State) (cs : List Host.Cell) : (hostWrites s cs).blocks = s.blocks := by
  induction cs generalizing s with
  | nil => rfl
  | cons c cs ih => simp [hostWrites, ih]
@[simp] theorem hostWrites_tailBits (s : State) (cs : List Host.Cell) : (hostWrites s cs).tailBits = s.tailBits := by
  induction cs generalizing s with
  | nil => rfl
  | cons c cs ih => simp [hostWrites, ih]
@[simp] theorem hostWrites_tailEmit (s : State) (cs : List Host.Cell) : (hostWrites s cs).tailEmit = s.tailEmit := by
  induction cs generalizing s with
  | nil => rfl
  | cons c cs ih => simp [hostWrites, ih]
@[simp] theorem hostWrites_readAddr (s : State) (cs : List Host.Cell) : (hostWrites s cs).readAddr = s.readAddr := by
  induction cs generalizing s with
  | nil => rfl
  | cons c cs ih => simp [hostWrites, ih]
@[simp] theorem hostWrites_draws (s : State) (cs : List Host.Cell) : (hostWrites s cs).draws = s.draws := by
  induction cs generalizing s with
  | nil => rfl
  | cons c cs ih => simp [hostWrites, ih]
@[simp] theorem hostWrites_everReset (s : State) (cs : List Host.Cell) : (hostWrites s cs).everReset = s.everReset := by
  induction cs generalizing s with
  | nil => rfl
  | cons c cs ih => simp [hostWrites, ih]
@[simp] theorem hostWrites_inputs (s : State) (cs : List Host.Cell) : (hostWrites s cs).inputs = s.inputs := by
  induction cs generalizing s with
  | nil => rfl
  | cons c cs ih => simp [hostWrites, ih]
@[simp] theorem hostWrites_trace (s : State) (cs : List Host.Cell) : (hostWrites s cs).trace = s.trace := by
  induction cs generalizing s with
  | nil => rfl
  | cons c cs ih => simp [hostWrites, ih]
@[simp] theorem hostWrites_taken (s : State) (cs : List Host.Cell) : (hostWrites s cs).taken = s.taken := by
  induction cs generalizing s with
  | nil => rfl
  | cons c cs ih => simp [hostWrites, ih]

end Sys2Proof.Machine
end

