-- ==== Sys2Proof/Laws/Mapper.lean ====
section
/-! SUPPORT. What a register of a parameter's width holds after a write, and what a mapper step can do. -/

namespace Sys2Proof.Machine

/-- A register of `n` bits holds a number of `n` bits. -/
theorem lowBits_lt (w n v : Nat) : (lowBits w n v).toNat < 2 ^ n := by
  simp only [lowBits, BitVec.toNat_ofNat]
  exact lt_of_le_of_lt (Nat.mod_le _ _) (Nat.mod_lt _ (by positivity))

/-- A number that fits a register of `n` bits is kept whole. -/
theorem lowBits_eq (w n v : Nat) (h : v < 2 ^ n) (hn : n ≤ w) : (lowBits w n v).toNat = v := by
  simp only [lowBits, BitVec.toNat_ofNat]
  rw [Nat.mod_eq_of_lt h, Nat.mod_eq_of_lt (lt_of_lt_of_le h (Nat.pow_le_pow_right (by decide) hn))]

/-- Everything a mapper step with an in-bounds index does (R105 to R107): the cursor stands inside the target, the read
is of the index itself, and the cursor's new value fits its registers. -/
theorem mapperStep_spec (s : State) (hw : WidthInv s) (hc : CursorInv s) (hm : s.mapperFrame = true)
    (hb : s.indexInBounds = true) :
    s.curX.toNat < s.height.toNat ∧ s.curY.toNat + s.offsetB ≤ s.height.toNat ∧
    (mapperStep s).curX.toNat = (advance s.height.toNat s.curX.toNat s.curY.toNat).1 ∧
    (mapperStep s).curY.toNat = (advance s.height.toNat s.curX.toNat s.curY.toNat).2 ∧
    (mapperStep s).readAddr.toNat = s.index.toNat := by
  obtain ⟨⟨hl1, hl2, hl3, hl4, -⟩, h1, h2, h3, h4, h5⟩ := hw
  obtain ⟨hpre, hx, hy, hxy⟩ := hc.1 hm
  have ec : ∀ v : BitVec 15, v ≠ 0 ↔ v.toNat ≠ 0 := by
    intro v; rw [ne_eq, BitVec.toNat_eq]; rfl
  rw [ec] at hx hxy
  simp only [State.preOk, decide_eq_true_eq] at hpre
  simp only [State.indexInBounds, decide_eq_true_eq] at hb
  have hb0 : s.offsetB ≤ 1 := by unfold State.offsetB; split <;> omega
  have hidx : s.index = (s.curX.toNat : Int) * s.width.toNat + s.height.toNat - s.offsetB - s.curY.toNat := rfl
  have hpow : 2 ^ s.params.dimBits < 2 ^ (s.params.dimBits + 1) := Nat.pow_lt_pow_right (by decide) (by omega)
  have hyb : s.curY.toNat + s.offsetB ≤ s.height.toNat := by
    by_cases h0 : s.curX.toNat = 0
    · rw [hidx, h0] at hb; omega
    · exact hxy h0
  have hH : s.height.toNat ≠ 0 := by
    intro h0
    have hx0 : s.curX.toNat = 0 := by
      by_contra hne
      have := hx hne
      omega
    rw [h0, Nat.mul_zero] at hpre
    rw [hidx, hx0] at hb
    omega
  have hxb : s.curX.toNat < s.height.toNat := by
    by_cases h0 : s.curX.toNat = 0
    · omega
    · exact hx h0
  refine ⟨hxb, hyb, ?_, ?_, ?_⟩
  · apply lowBits_eq _ _ _ _ (by omega)
    unfold advance; split
    · simp
    · simp; omega
  · apply lowBits_eq _ _ _ _ (by omega)
    unfold advance; split <;> simp <;> omega
  · apply lowBits_eq _ _ _ _ (by omega)
    omega

end Sys2Proof.Machine
end

