-- ==== Sys2Proof/Laws/Memory.lean ====
section
/-! SUPPORT. The laws of the sample memory and of the list of unstable addresses: a read after a write, and the
canonical form, which every operation keeps. -/

namespace Sys2Proof.Machine

/-- A read of the address just written gives the byte written. -/
@[simp] theorem Memory.read_write_same (m : List Host.Cell) (a : Nat) (b : Byte) :
    Memory.read (Memory.write m a b) a = some b := by
  induction m with
  | nil => simp [Memory.write, Memory.read]
  | cons c m ih =>
    obtain ⟨k, v⟩ := c
    unfold Memory.write
    split
    · simp [Memory.read]
    · split
      · simp [Memory.read]
      · next h => simp [Memory.read, h, ih]

/-- A write leaves every other address as it was. -/
theorem Memory.read_write_other (m : List Host.Cell) (a a' : Nat) (b : Byte) (h : a' ≠ a) :
    Memory.read (Memory.write m a b) a' = Memory.read m a' := by
  induction m with
  | nil => simp [Memory.write, Memory.read, h]
  | cons c m ih =>
    obtain ⟨k, v⟩ := c
    unfold Memory.write
    split
    · simp [Memory.read, h]
    · split
      · next hk => subst hk; simp [Memory.read, h]
      · simp [Memory.read, ih]

/-- The first address of a memory after a write: the written one or the old first one, never lower than both. -/
theorem Memory.wf_cons_write (k : Nat) (v : Byte) (m : List Host.Cell) (a : Nat) (b : Byte) (hk : k < a)
    (h : Memory.wf ((k, v) :: m) = true) : Memory.wf ((k, v) :: Memory.write m a b) = true := by
  induction m generalizing k v with
  | nil => simp [Memory.write, Memory.wf, hk]
  | cons c m ih =>
    obtain ⟨k', v'⟩ := c
    simp only [Memory.wf, Bool.and_eq_true, decide_eq_true_eq] at h
    unfold Memory.write
    split
    · next hlt => simp [Memory.wf, hk, hlt, h.2]
    · split
      · next heq =>
        subst heq
        cases m with
        | nil => simp [Memory.wf, hk]
        | cons c m => simpa [Memory.wf, hk] using h.2
      · next hlt hne =>
        have hk' : k' < a := by omega
        simpa [Memory.wf, h.1] using ih k' v' hk' h.2

/-- A write keeps the canonical form. -/
theorem Memory.wf_write (m : List Host.Cell) (a : Nat) (b : Byte) (h : Memory.wf m = true) :
    Memory.wf (Memory.write m a b) = true := by
  cases m with
  | nil => rfl
  | cons c m =>
    obtain ⟨k, v⟩ := c
    unfold Memory.write
    split
    · next hlt => simp [Memory.wf, hlt, h]
    · split
      · next heq =>
        subst heq
        cases m with
        | nil => rfl
        | cons c m => simpa [Memory.wf] using h
      · next hlt hne => exact Memory.wf_cons_write k v m a b (by omega) h

/-- Adding an address above the first keeps the canonical form behind it. -/
theorem AddrSet.wf_cons_insert (k : Nat) (m : List Nat) (a : Nat) (hk : k < a) (h : AddrSet.wf (k :: m) = true) :
    AddrSet.wf (k :: AddrSet.insert m a) = true := by
  induction m generalizing k with
  | nil => simp [AddrSet.insert, AddrSet.wf, hk]
  | cons k' m ih =>
    simp only [AddrSet.wf, Bool.and_eq_true, decide_eq_true_eq] at h
    unfold AddrSet.insert
    split
    · next hlt => simp [AddrSet.wf, hk, hlt, h.2]
    · split
      · simp [AddrSet.wf, h.1, h.2]
      · next hlt hne =>
        have hk' : k' < a := by omega
        simpa [AddrSet.wf, h.1] using ih k' hk' h.2

/-- Adding an address keeps the canonical form. -/
theorem AddrSet.wf_insert (m : List Nat) (a : Nat) (h : AddrSet.wf m = true) :
    AddrSet.wf (AddrSet.insert m a) = true := by
  cases m with
  | nil => rfl
  | cons k m =>
    unfold AddrSet.insert
    split
    · next hlt => simp [AddrSet.wf, hlt, h]
    · split
      · exact h
      · next hlt hne => exact AddrSet.wf_cons_insert k m a (by omega) h

/-- The canonical form as an order on all pairs. -/
theorem AddrSet.wf_iff_pairwise (m : List Nat) : AddrSet.wf m = true ↔ m.Pairwise (· < ·) := by
  induction m with
  | nil => simp [AddrSet.wf]
  | cons k m ih =>
    cases m with
    | nil => simp [AddrSet.wf]
    | cons k' m =>
      simp only [AddrSet.wf, Bool.and_eq_true, decide_eq_true_eq, ih, List.pairwise_cons, List.mem_cons]
      constructor
      · rintro ⟨hlt, hall, hp⟩
        refine ⟨?_, hall, hp⟩
        rintro x (rfl | hx)
        · exact hlt
        · exact lt_trans hlt (hall x hx)
      · rintro ⟨hall, hp⟩
        exact ⟨hall k' (Or.inl rfl), hp⟩

/-- Removing an address keeps the canonical form. -/
theorem AddrSet.wf_erase (m : List Nat) (a : Nat) (h : AddrSet.wf m = true) : AddrSet.wf (AddrSet.erase m a) = true := by
  rw [AddrSet.wf_iff_pairwise] at h ⊢
  exact h.filter _

/-- The members after adding an address. -/
@[simp] theorem AddrSet.mem_insert (m : List Nat) (a x : Nat) : x ∈ AddrSet.insert m a ↔ x = a ∨ x ∈ m := by
  induction m with
  | nil => simp [AddrSet.insert]
  | cons k m ih =>
    unfold AddrSet.insert
    split
    · simp
    · split
      · next heq => subst heq; simp
      · simp only [List.mem_cons, ih]; tauto

/-- The members after removing an address. -/
@[simp] theorem AddrSet.mem_erase (m : List Nat) (a x : Nat) : x ∈ AddrSet.erase m a ↔ x ∈ m ∧ x ≠ a := by
  simp [AddrSet.erase]

/-- One host write keeps both canonical forms. -/
theorem hostWrite_wf (s : State) (c : Host.Cell) (hm : Memory.wf s.mem = true) (hu : AddrSet.wf s.unstable = true) :
    Memory.wf (hostWrite s c).mem = true ∧ AddrSet.wf (hostWrite s c).unstable = true := by
  refine ⟨Memory.wf_write _ _ _ hm, ?_⟩
  show AddrSet.wf (if s.breaksStability c.1 then _ else _) = true
  split
  · exact AddrSet.wf_insert _ _ hu
  · exact AddrSet.wf_erase _ _ hu

/-- The host's writes of a cycle keep both canonical forms. -/
theorem hostWrites_wf (s : State) (cs : List Host.Cell) (hm : Memory.wf s.mem = true)
    (hu : AddrSet.wf s.unstable = true) :
    Memory.wf (hostWrites s cs).mem = true ∧ AddrSet.wf (hostWrites s cs).unstable = true := by
  induction cs generalizing s with
  | nil => exact ⟨hm, hu⟩
  | cons c cs ih => exact ih _ (hostWrite_wf s c hm hu).1 (hostWrite_wf s c hm hu).2

/-- An address the host does not write in a cycle keeps its byte. -/
theorem hostWrites_read_other (s : State) (cs : List Host.Cell) (a : Nat) (h : ∀ c ∈ cs, c.1 ≠ a) :
    Memory.read (hostWrites s cs).mem a = Memory.read s.mem a := by
  induction cs generalizing s with
  | nil => rfl
  | cons c cs ih =>
    rw [hostWrites, ih _ fun d hd => h d (List.mem_cons_of_mem _ hd)]
    exact Memory.read_write_other _ _ _ _ (Ne.symm (h c List.mem_cons_self))

/-- The reset state's memory has the canonical form. -/
theorem reset_memory_wf : Memory.wf State.reset.mem = true ∧ AddrSet.wf State.reset.unstable = true := ⟨rfl, rfl⟩

end Sys2Proof.Machine
end

