-- ==== Sys2Proof/Laws/Ops.lean ====
section
/-! SUPPORT. What the shared operations of a cycle can do, each said once: the own action, a command's cycle, and the
step. -/

namespace Sys2Proof.Machine

/-- IDLE and ERROR raise no error of their own. -/
theorem ownError_none_of_not_busy (s : State) (h : s.state.phase ≠ .busy) : ownError s = none := by
  cases hs : s.state <;> simp_all [SeqState.phase, ownError, SeqState.offersByte, SeqState.requestsFlush]

/-- IDLE and ERROR have no own action (R151, R164). -/
theorem ownStep_of_not_busy (s : State) (h : s.state.phase ≠ .busy) : ownStep s = s := by
  cases hs : s.state <;> simp_all [SeqState.phase, ownStep]

/-- IDLE and ERROR are left unchanged by a cycle without a command. -/
theorem ownCycle_of_not_busy (s : State) (h : s.state.phase ≠ .busy) : ownCycle s = s := by
  simp [ownCycle, ownError_none_of_not_busy s h, ownStep_of_not_busy s h]

/-- When the own action raises an error (R203): which one, in which states, for which answer. -/
theorem ownError_eq_some (s : State) (c : ErrCode) :
    ownError s = some c ↔
      (s.state.offersByte = true ∧ s.pins.writeAnswer = .fail ∧ c = .txIo) ∨
      (s.state.requestsFlush = true ∧ s.pins.flushAnswer = .fail ∧ c = .flushIo) := by
  cases hs : s.state <;> simp [ownError, SeqState.offersByte, SeqState.requestsFlush, hs, eq_comm]

/-- The own action raises nothing: neither a failed write nor a failed flush. -/
theorem ownError_eq_none (s : State) :
    ownError s = none ↔
      (s.state.offersByte = true → s.pins.writeAnswer ≠ .fail) ∧
      (s.state.requestsFlush = true → s.pins.flushAnswer ≠ .fail) := by
  cases hs : s.state <;> simp [ownError, SeqState.offersByte, SeqState.requestsFlush, hs]

/-- The pseudocode a command runs when its verdict is to act. -/
def commandAct : Instr → State → State
  | .nop => fun t => t
  | .setw arg => fun t => { t with width := dimOperand t.params arg }
  | .seth arg => fun t => { t with height := dimOperand t.params arg }
  | .setlen arg => fun t => { t with len := lenOperand t.params arg }
  | .setcfg cfg => fun t => { t with cfg := cfg }
  | .start => startFrame
  | .sample value => acceptSample value
  | .endInput => endOfInput
  | .clear => clearRegisters
  | .reserved9 => fun t => t
  | .reservedA => fun t => t
  | .reservedB => fun t => t
  | .reservedC => fun t => t
  | .reservedD => fun t => t
  | .reservedE => fun t => t
  | .reservedF => fun t => t

/-- Every command answers a next state: its cycle. -/
theorem exec_eq_next (i : Instr) (s : State) : exec i s = .next (commandCycle i.opcode (commandAct i) s) := by
  cases i <;> rfl

/-- Everything a command's cycle can do (R150, R170, R208). -/
theorem commandCycle_cases (op : Opcode) (act : State → State) (s : State) :
    (∃ c, ownError s = some c ∧ commandCycle op act s = raiseError c s.state s) ∨
    (ownError s = none ∧
      ((verdict op s.state s.cfgSrc = .act ∧ commandCycle op act s = act (ownStep s)) ∨
       (∃ c, verdict op s.state s.cfgSrc = .error c ∧ commandCycle op act s = raiseError c s.state (ownStep s)) ∨
       ((verdict op s.state s.cfgSrc = .ignore ∨ verdict op s.state s.cfgSrc = .stall) ∧
        commandCycle op act s = ownStep s))) := by
  unfold commandCycle
  cases ownError s with
  | some c => exact Or.inl ⟨c, rfl, rfl⟩
  | none => cases verdict op s.state s.cfgSrc <;> simp

/-- The verdict `act` (R171): NOP anywhere; the configuration commands and START in IDLE; SAMPLE and END in RUN in
stream mode; CLEAR in IDLE and ERROR. -/
theorem verdict_eq_act (op : Opcode) (st : SeqState) (stream : Bool) :
    verdict op st stream = .act ↔
      op = .nop ∨
      ((op = .setw ∨ op = .seth ∨ op = .setlen ∨ op = .setcfg ∨ op = .start) ∧ st = .idle) ∨
      ((op = .sample ∨ op = .endInput) ∧ st = .run ∧ stream = true) ∨
      (op = .clear ∧ (st = .idle ∨ st = .error)) := by
  cases op <;> cases st <;> cases stream <;> decide

/-- Where a command acts other than NOP, the state has no own action: the pseudocode runs on the cycle's own state. -/
theorem ownStep_of_act (i : Instr) (s : State) (h : verdict i.opcode s.state s.cfgSrc = .act) (hn : i.opcode ≠ .nop) :
    ownStep s = s := by
  rcases (verdict_eq_act _ _ _).1 h with h | ⟨-, hs⟩ | ⟨-, hs, hc⟩ | ⟨-, hs | hs⟩
  · exact absurd h hn
  · simp [ownStep, hs]
  · simp [ownStep, hs, stepRun, hc]
  · simp [ownStep, hs]
  · simp [ownStep, hs]

/-- A verdict is an error only with CMD_STATE or ILLEGAL_CMD (R206), and never in ERROR (R209). -/
theorem verdict_eq_error (op : Opcode) (st : SeqState) (stream : Bool) (c : ErrCode)
    (h : verdict op st stream = .error c) : st ≠ .error ∧ (c = .cmdState ∨ (c = .illegalCmd ∧ op = .reserved)) := by
  cases op <;> cases st <;> cases stream <;> simp_all [verdict, SeqState.phase, inputVerdict]

/-- The registers after a cycle, before the next cycle's pins come up. -/
def cycleResult (s : State) : State :=
  if s.pins.rst then resetRegisters (hostWrites s s.pins.memWrites)
  else if s.pins.cmdValid then
    commandCycle (decode s.pins.cmdWord).opcode (commandAct (decode s.pins.cmdWord)) (hostWrites s s.pins.memWrites)
  else ownCycle (hostWrites s s.pins.memWrites)

/-- When the step answers a next state, and which. -/
theorem step_eq_next (s t : State) :
    step s = .next t ↔
      (s.everReset = true ∨ s.pins.rst = true) ∧ writesInRange s.params s.pins.memWrites = true ∧
        t = endCycle (cycleResult s) := by
  unfold step clockEdge cycleBody cycleResult
  cases s.everReset <;> cases s.pins.rst <;> cases writesInRange s.params s.pins.memWrites <;>
    cases s.pins.cmdValid <;> simp [mapNext, exec_eq_next, eq_comm]

/-- The pins a cycle reads are not changed by the host's memory writes. -/
@[simp] theorem hostWrites_pins (s : State) (cs : List Host.Cell) : (hostWrites s cs).pins = s.pins := by
  simp [State.pins]

end Sys2Proof.Machine
end

