-- ==== Sys2Proof/Laws/Packer.lean ====
section
/-! SUPPORT. What the packer's operations do: the frame of a state's own action, the bound of the accumulator, and the
loop of the frame function one sample at a time. -/

namespace Sys2Proof.Machine

/-- The own action of a state (R151 to R162) writes no configuration register, no error register, no memory and no
pin. -/
theorem ownStep_frame (s : State) :
    (ownStep s).params = s.params ∧ (ownStep s).width = s.width ∧ (ownStep s).height = s.height ∧
      (ownStep s).len = s.len ∧ (ownStep s).cfg = s.cfg ∧ (ownStep s).err = s.err ∧
      (ownStep s).errState = s.errState ∧ (ownStep s).mem = s.mem ∧ (ownStep s).unstable = s.unstable ∧
      (ownStep s).everReset = s.everReset ∧ (ownStep s).inputs = s.inputs := by
  cases hs : s.state <;> simp only [ownStep, hs, and_self]
  case pre => unfold stepPre; cases s.pins.writeAnswer <;> simp
  case preFl => unfold stepPreFl; cases s.pins.flushAnswer <;> simp
  case run =>
    unfold stepRun endOfInput
    split
    · simp
    · split
      · simp
      · split <;> simp
  case fetch => simp [stepFetch]
  case emit => unfold stepEmit; cases s.pins.writeAnswer <;> simp
  case pad => unfold stepPad; cases s.pins.writeAnswer <;> simp
  case blkFl => unfold stepBlkFl; cases s.pins.flushAnswer <;> simp
  case pause => unfold stepPause; split <;> simp
  case endFl => unfold stepEndFl; cases s.pins.flushAnswer <;> simp

/-- The end of input (R157): with a tail of bits under PAD the sequencer goes on to emit it, otherwise the tail is
dropped and the trailing flush follows. -/
theorem endOfInput_cases (s : State) :
    (s.cfgTail = true ∧ s.bitCnt ≠ 0 ∧
      endOfInput s = { s with eoi := true, tailBits := s.bitCnt &&& 7, tailEmit := true, state := .emit }) ∨
    ((s.cfgTail = false ∨ s.bitCnt = 0) ∧
      endOfInput s =
        { s with
          eoi := true, tailBits := s.bitCnt &&& 7, tailEmit := false, acc := 0, bitCnt := 0, state := .endFl }) := by
  unfold endOfInput
  split
  · next h => exact .inl ⟨by simp_all, by simp_all, rfl⟩
  · next h => exact .inr ⟨by simp at h; by_cases ht : s.cfgTail <;> simp_all, rfl⟩

/-- One threshold bit more in an accumulator that holds `k` bits: it holds `k` + 1 (R132, R48). -/
theorem packBit_lt (acc : Byte) (k : BitVec 4) (b : Byte) (h : acc.toNat < 2 ^ k.toNat) (hk : k ≤ 7) :
    (packBit acc k b).toNat < 2 ^ (k.toNat + 1) := by
  have hk' : k.toNat ≤ 7 := by simpa [BitVec.le_def] using hk
  unfold packBit
  rw [BitVec.toNat_or]
  apply Nat.or_lt_two_pow
  · exact lt_trans h (Nat.pow_lt_pow_right (by decide) (by omega))
  · rw [Nat.mod_eq_of_lt (by omega), BitVec.toNat_shiftLeft]
    refine lt_of_le_of_lt (Nat.mod_le _ _) ?_
    split <;> simp [Nat.shiftLeft_eq, Nat.pow_lt_pow_right]

/-- The frame function's loop takes the samples one by one (R145). -/
theorem packAll_append (l : List Byte) (b : Byte) : packAll (l ++ [b]) = packSample (packAll l) b := by
  simp [packAll, packFrom, List.foldl_append]

/-- What one payload byte adds to the loop's variables: the byte, and after the eighth the block work (R136). -/
theorem packPayload_eq (p : PackState) :
    packPayload p =
      ⟨p.ev ++ .byte p.acc :: (if p.nb = 7 then [.byte Config.padByte, .flush, .pause] else []), 0, 0,
        if p.nb = 7 then 0 else p.nb + 1⟩ := by
  unfold packPayload packBlock
  by_cases h : p.nb = 7 <;> simp [h, Config.blockBytes]

/-- A trace that starts the loop's events starts the whole frame. -/
theorem prefix_frame (l : List Byte) (tr : List Event) (pad : Bool) (h : tr <+: (packAll l).ev) :
    tr <+: frame l pad := by
  unfold frame packEnd
  refine List.IsPrefix.trans h ?_
  split
  · rw [packPayload_eq]; simp [List.append_assoc]
  · simp

/-- The bytes of two traces in a row. -/
@[simp] theorem byteCount_append (a b : List Event) : byteCount (a ++ b) = byteCount a + byteCount b := by
  simp [byteCount]
@[simp] theorem byteCount_byte (b : Byte) : byteCount [.byte b] = 1 := rfl
@[simp] theorem byteCount_flush : byteCount [.flush] = 0 := rfl
@[simp] theorem byteCount_pause : byteCount [.pause] = 0 := rfl

end Sys2Proof.Machine
end

