-- ==== Sys2Proof/Laws/PerInstr.lean ====
section
/-! SUPPORT. One statement about every command as syntax, proved constructor by constructor. -/

namespace Sys2Proof.Laws.OpcodeField

/-- R80, R83, R84, R90: a command's word carries its opcode value in bits 31 to 28 and its operand bits in bits 27 to
0; the command belongs to the reserved class exactly when its opcode value is above 8, and the assembler then refuses
it at every build. -/
def Statement (i : Instr) : Prop :=
  opField (encode i) = i.opBits ∧ argField (encode i) = i.argBits ∧ (i.opcode = .reserved ↔ 8 < i.opBits.toNat) ∧
    (i.opcode = .reserved → ∀ p : Params, i.wellFormed p = false)

/-- The two fields of a word put together from them. -/
theorem fields (i : Instr) : opField (encode i) = i.opBits ∧ argField (encode i) = i.argBits := by
  unfold opField argField encode
  constructor
  · ext k hk
    simp only [BitVec.getElem_extractLsb', BitVec.getLsbD_append]
    simp [BitVec.getLsbD_eq_getElem hk]
  · ext k hk
    simp only [BitVec.getElem_extractLsb', BitVec.getLsbD_append]
    simp [hk]

/-- One of the nine commands. -/
theorem of_command (i : Instr) (h : i.opcode ≠ .reserved) (hb : i.opBits.toNat ≤ 8) : Statement i :=
  ⟨(fields i).1, (fields i).2, ⟨fun h' => absurd h' h, fun h' => absurd h' (by omega)⟩, fun h' => absurd h' h⟩

/-- One of the reserved opcodes. -/
theorem of_reserved (i : Instr) (h : i.opcode = .reserved) (hb : 8 < i.opBits.toNat)
    (hw : ∀ p : Params, i.wellFormed p = false) : Statement i :=
  ⟨(fields i).1, (fields i).2, ⟨fun _ => hb, fun _ => h⟩, fun _ => hw⟩

theorem nop : Statement .nop := of_command _ nofun (Nat.le_of_ble_eq_true rfl)
theorem setw (arg : Arg) : Statement (.setw arg) := of_command _ nofun (Nat.le_of_ble_eq_true rfl)
theorem seth (arg : Arg) : Statement (.seth arg) := of_command _ nofun (Nat.le_of_ble_eq_true rfl)
theorem setlen (arg : Arg) : Statement (.setlen arg) := of_command _ nofun (Nat.le_of_ble_eq_true rfl)
theorem setcfg (cfg : BitVec 3) : Statement (.setcfg cfg) := of_command _ nofun (Nat.le_of_ble_eq_true rfl)
theorem start : Statement .start := of_command _ nofun (Nat.le_of_ble_eq_true rfl)
theorem sample (value : Byte) : Statement (.sample value) := of_command _ nofun (Nat.le_of_ble_eq_true rfl)
theorem endInput : Statement .endInput := of_command _ nofun (Nat.le_of_ble_eq_true rfl)
theorem clear : Statement .clear := of_command _ nofun (Nat.le_of_ble_eq_true rfl)
theorem reserved9 : Statement .reserved9 := of_reserved _ rfl (Nat.le_of_ble_eq_true rfl) fun _ => rfl
theorem reservedA : Statement .reservedA := of_reserved _ rfl (Nat.le_of_ble_eq_true rfl) fun _ => rfl
theorem reservedB : Statement .reservedB := of_reserved _ rfl (Nat.le_of_ble_eq_true rfl) fun _ => rfl
theorem reservedC : Statement .reservedC := of_reserved _ rfl (Nat.le_of_ble_eq_true rfl) fun _ => rfl
theorem reservedD : Statement .reservedD := of_reserved _ rfl (Nat.le_of_ble_eq_true rfl) fun _ => rfl
theorem reservedE : Statement .reservedE := of_reserved _ rfl (Nat.le_of_ble_eq_true rfl) fun _ => rfl
theorem reservedF : Statement .reservedF := of_reserved _ rfl (Nat.le_of_ble_eq_true rfl) fun _ => rfl

end Sys2Proof.Laws.OpcodeField
end

