-- ==== Sys2Proof/Tests/Slice0.lean ====
section
/-! SUPPORT. The model's own tests, on values from the spec's vectors (`95_test_vectors.md`), and a concrete witness for
the hypotheses of every statement that has some. -/

namespace Sys2Proof.Tests

open Sys2Proof.Machine

/-! Helpers. -/

/-- A build with concrete parameters: the spec's default widths, a pause of two cycles. -/
def params : Params := ⟨12, 24, 2, 1⟩

/-- The reset state of that build. -/
def base : State := { State.reset with params := params }

/-- The next state of an outcome. -/
def nextOf : Host.Outcome State Fault Refusal → Option State
  | .next s => some s
  | .fault _ => none
  | .refused _ => none

/-- One field of the state after a command. -/
def after {α : Type} (i : Instr) (s : State) (f : State → α) : Option α := (nextOf (exec i s)).map f

/-- A cycle's pins with an ideal sink (R247). -/
def ideal : CycleInput := { txReady := true, flDone := true }

/-- The state with the given pins in its coming cycle. -/
def withPins (s : State) (p : CycleInput) : State := { s with inputs := [p] }

/-- A word offered with an ideal sink. -/
def offer (w : Word) : CycleInput := { ideal with cmdValid := true, cmdWord := w }

/-- A busy state of a stream-mode frame (CFG.SRC = 1). -/
def stream (q : SeqState) : State := { base with state := q, cfg := 1, preCnt := 11 }

/-- A busy state of a mapper-mode frame at the reset configuration. -/
def mapper (q : SeqState) : State := { base with state := q, preCnt := 11 }

/-- Program L3-3 (2 × 2, PAD), its memory M = 00 FF 80 7F, in a state of its frame. -/
def l33 (q : SeqState) : State :=
  { base with
    state := q, width := 2, height := 2, len := 4, cfg := 2
    mem := [(0, 0x00), (1, 0xFF), (2, 0x80), (3, 0x7F)]
    preCnt := 11, txBytes := 11, trace := List.replicate 11 (.byte 0x23) ++ [.flush] }

/-- The end of input reached in program L3-3: four samples taken, the cursor at (0, 2), the tail byte accepted. -/
def l33EndFl : State :=
  { l33 .endFl with
    samples := 4, taken := [0xFF, 0x7F, 0x00, 0x80], curY := 2, eoi := true, tailBits := 4, tailEmit := true
    byteCnt := 1, txBytes := 12, readAddr := 2
    trace := List.replicate 11 (.byte 0x23) ++ [.flush, .byte 0x09] }

/-- The end state of program L3-3. -/
def l33End : State := { l33EndFl with state := .idle, done := true, trace := l33EndFl.trace ++ [.flush] }

/-- ERROR after a reserved word in IDLE. -/
def errorState : State := { base with state := .error, err := .illegalCmd }

/-! The assembler's check refuses an ill-formed command (R90). -/

theorem test_wf_refuses_setw : (Instr.setw 4096).wellFormed params = false := by decide
theorem test_wf_refuses_seth : (Instr.seth 4096).wellFormed params = false := by decide
theorem test_wf_refuses_setlen : (Instr.setlen 0x1000000).wellFormed params = false := by decide
theorem test_wf_refuses_reserved :
    Instr.reserved9.wellFormed params = false ∧ Instr.reservedA.wellFormed params = false ∧
    Instr.reservedB.wellFormed params = false ∧ Instr.reservedC.wellFormed params = false ∧
    Instr.reservedD.wellFormed params = false ∧ Instr.reservedE.wellFormed params = false ∧
    Instr.reservedF.wellFormed params = false := by decide
theorem test_wf_accepts_largest :
    (Instr.setw 4095).wellFormed params = true ∧ (Instr.setlen 0xFFFFFF).wellFormed params = true := by decide

/-! Decoding (95_test_vectors.md 2.5; the bits from R80 and R83: OP in bits 31 to 28, ARG below). -/

theorem test_decode_nop : decode 0b0000_0000_0000_0000_0000_0000_0000_0000 = .nop := by decide
theorem test_decode_setw : decode 0b0001_0000_0000_0000_0000_0000_0100_0000 = .setw 64 := by decide
theorem test_decode_seth : decode 0b0010_0000_0000_0000_0000_0000_0100_0000 = .seth 64 := by decide
theorem test_decode_setlen : decode 0b0011_0000_0000_0000_0001_0000_0000_0000 = .setlen 4096 := by decide
theorem test_decode_setcfg : decode 0b0100_1111_1111_1111_1111_1111_1111_0101 = .setcfg 5 := by decide
theorem test_decode_start : decode 0b0101_1111_1111_1111_1111_1111_1111_1111 = .start := by decide
theorem test_decode_sample : decode 0b0110_1010_1011_1100_1101_1110_1000_0000 = .sample 0x80 := by decide
theorem test_decode_end : decode 0b0111_0000_0000_0000_0000_0000_0000_0000 = .endInput := by decide
theorem test_decode_clear : decode 0b1000_0000_0000_0000_0000_0000_0000_0000 = .clear := by decide
theorem test_decode_reserved :
    decode 0b1001_0000_0000_0000_0000_0000_0000_0000 = .reserved9 ∧
    decode 0b1010_0000_0000_0000_0000_0000_0000_0001 = .reservedA ∧
    decode 0b1011_0000_0000_0000_0000_0000_0000_0010 = .reservedB ∧
    decode 0b1100_0000_0000_0000_0000_0000_0000_0100 = .reservedC ∧
    decode 0b1101_0000_0000_0000_0000_0000_0000_1000 = .reservedD ∧
    decode 0b1110_0000_0000_0000_0000_0000_0001_0000 = .reservedE ∧
    decode 0b1111_1111_1111_1111_1111_1111_1111_1111 = .reservedF := by decide

/-! Commands (95_test_vectors.md 2.6). -/

theorem test_nop_idle : after .nop base (·.status) = some 0x00000000 := by decide
theorem test_setw_idle : after (.setw 5) base (·.width) = some 5 := by decide
theorem test_setw_ignores_high_bits : after (.setw 0xFFFF040) base (·.width) = some 64 := by decide
theorem test_seth_idle : after (.seth 0) base (·.height) = some 0 := by decide
theorem test_setlen_idle : after (.setlen 0) base (·.len) = some 0 := by decide
theorem test_setlen_ignores_high_bits : after (.setlen 0xF001000) base (·.len) = some 4096 := by decide
theorem test_setcfg_idle : after (.setcfg 7) base (·.cfg) = some 7 := by decide
theorem test_start_idle : after .start l33End (fun t => (t.state, t.samples, t.txBytes, t.tailBits, t.tailEmit)) =
    some (.pre, 0, 0, 0, false) := by decide
theorem test_start_precond : after .start { base with len := 4095 } (·.status) = some 0x0000001F := by decide
theorem test_sample_run : after (.sample 0x80) (stream .run) (fun t => (t.acc, t.bitCnt, t.samples)) =
    some (0x01, 1, 1) := by decide
theorem test_sample_idle : after (.sample 5) base (·.status) = some 0x0000005F := by decide
theorem test_end_drop : after .endInput { stream .run with bitCnt := 5, acc := 0x15 }
    (fun t => (t.eoi, t.tailBits, t.acc, t.bitCnt, t.state)) = some (true, 5, 0, 0, .endFl) := by decide
theorem test_end_pad : after .endInput { stream .run with cfg := 3, bitCnt := 5, acc := 0x15 }
    (fun t => (t.eoi, t.tailBits, t.tailEmit, t.acc, t.state)) = some (true, 5, true, 0x15, .emit) := by decide
theorem test_clear_idle : after .clear l33End (fun t => (t.status, t.samples, t.txBytes)) =
    some (0x04000800, 4, 12) := by decide
theorem test_clear_error : after .clear errorState (·.status) = some 0x00000000 := by decide
theorem test_reserved_idle :
    ∀ i ∈ [Instr.reserved9, .reservedA, .reservedB, .reservedC, .reservedD, .reservedE, .reservedF],
      after i base (·.status) = some 0x0000004F := by decide
theorem test_reserved_error :
    ∀ i ∈ [Instr.reserved9, .reservedA, .reservedB, .reservedC, .reservedD, .reservedE, .reservedF],
      after i errorState (·.status) = some errorState.status := by decide

/-! Same-cycle priority (2.6), failures (2.7) and single cycles of L3-3 (2.9). -/

/-- The state after one step. -/
def stepped (s : State) : Option State := nextOf (step s)

theorem test_command_error_keeps_the_byte :
    (stepped (withPins { base with state := .pre } (offer 0x10000003))).map
      (fun t => (t.status, t.txBytes, t.width)) = some (0x1010005F, 1, 64) := by decide
theorem test_sink_failure_wins :
    (stepped (withPins { base with state := .pre } { offer 0x10000003 with txErr := true })).map
      (fun t => (t.status, t.txBytes, t.width)) = some (0x1000002F, 0, 64) := by decide
theorem test_last_flush_then_error :
    (stepped (withPins { stream .endFl with eoi := true } (offer 0x50000000))).map
      (fun t => (t.status, t.trace)) = some (0x90B0045F, [.flush]) := by decide
theorem test_l33_run_issues_read :
    (outputsOf (l33 .run) ideal).memEn = true ∧ (outputsOf (l33 .run) ideal).memAddr = 1 ∧
    (stepped (withPins (l33 .run) ideal)).map (fun t => (t.state, t.curX, t.curY)) = some (.fetch, 1, 0) := by decide
theorem test_l33_fetch :
    (stepped (withPins { l33 .fetch with readAddr := 2, acc := 1, bitCnt := 3, curX := 0, curY := 2 } ideal)).map
      (fun t => (t.state, t.acc, t.bitCnt)) = some (.run, 0x09, 4) := by decide
theorem test_l33_last_flush :
    (stepped (withPins l33EndFl ideal)).map (·.status) = some 0x04B10D00 := by decide
theorem test_pad_after_eighth_byte :
    (stepped (withPins { mapper .emit with acc := 0xFF, bitCnt := 8, byteCnt := 7 } ideal)).map
      (fun t => (t.state, t.byteCnt, t.bitCnt, t.acc)) = some (.pad, 8, 0, 0) := by decide
theorem test_pause_counts_down :
    (stepped (withPins { mapper .pause with pauseCnt := 2 } ideal)).map (fun t => (t.state, t.trace)) =
      some (.pause, []) ∧
    (stepped (withPins { mapper .pause with pauseCnt := 1 } ideal)).map (fun t => (t.state, t.trace)) =
      some (.run, [.pause]) := by decide
theorem test_host_write_then_reset :
    (stepped (withPins (mapper .run) { rst := true, memWrites := [(3, 9)] })).map
      (fun t => (t.state, t.mem, t.len)) = some (.idle, [(3, 9)], 4096) := by decide

/-! The frame function (2.2, 2.3, S7) and the mapper's index table (2.4). -/

theorem test_frame_five_samples :
    (frame [0x80, 0x00, 0xFF, 0x7F, 0x81] false).drop 11 = [.flush, .flush] ∧
    (frame [0x80, 0x00, 0xFF, 0x7F, 0x81] true).drop 11 = [.flush, .byte 0x15, .flush] := by decide
theorem test_frame_eighth_byte :
    packFrom ⟨[], 0x7F, 7, 7⟩ [255, 128] = ⟨[.byte 0xFF, .byte 0x00, .flush, .pause], 0x01, 1, 0⟩ := by decide
theorem test_lane_byte : laneByte [128, 127, 200, 100, 255, 0, 130, 20] 0 = 0x55 := by decide
theorem test_mapper_square :
    mapperIdx 2 2 4 1 = [1, 3, 0, 2] ∧ mapperIdx 3 3 9 1 = [2, 5, 8, 1, 4, 7, 0, 3, 6] := by decide
theorem test_mapper_not_square :
    mapperIdx 4 2 8 1 = [1, 5, 0, 4] ∧ mapperIdx 2 4 8 1 = [3, 5, 7] ∧ mapperIdx 1 5 5 1 = [4] ∧
    mapperIdx 5 1 5 1 = [0] ∧ mapperIdx 0 5 0 1 = [] ∧ mapperIdx 5 0 0 1 = [] := by decide
theorem test_mapper_literal : mapperIdx 4 4 16 0 = [4, 8, 12] ∧ mapperIdx 1 1 1 0 = [] := by decide

/-! The assembler (2.5). -/

/-- A line of assembly as characters. -/
def line (s : String) : List Char := s.toList

theorem test_assemble_flags :
    assembleLine params (line "SETCFG MAPPER,DROP,ROTATE") = some [0x40000000] ∧
    assembleLine params (line "x: setcfg STREAM, PAD ; both") = some [0x40000003] ∧
    assembleLine params (line "SETCFG LITERAL,PAD") = some [0x40000006] := by decide
theorem test_assemble_operands :
    assembleLine params (line "SETW 0b1000000") = some [0x10000040] ∧
    assembleLine params (line "SAMPLE '#'") = some [0x60000023] ∧
    assembleLine params (line ".word 0x3F001000") = some [0x3F001000] := by decide
theorem test_assemble_pseudo :
    assembleLine params (line "CONFIG 8, 8") = some [0x10000008, 0x20000008, 0x30000040] ∧
    assembleLine params (line "PIXELS 1, 200") = some [0x60000001, 0x600000C8] ∧
    assembleLine params (line "SAMPLES 0xFF, 3") = some [0x600000FF, 0x600000FF, 0x600000FF] := by decide
theorem test_assemble_refuses :
    assembleLine params (line "SETW 4096") = none ∧ assembleLine params (line "SAMPLE 256") = none ∧
    assembleLine params (line "START 1") = none ∧ assembleLine params (line "SETW") = none ∧
    assembleLine params (line "FOO 1") = none := by decide

/-! Witnesses: for every statement with hypotheses, concrete states and operands that meet them, each clause at a
boundary of its range. -/

/-- The register invariants as a check that evaluates. -/
def regCheck (s : State) : Bool :=
  decide (WidthInv s) && decide (CountInv s) && decide (RestInv s) && decide (FlagInv s) && decide (CursorInv s) &&
    decide (CounterInv s)

theorem regInv_of (s : State) (h : regCheck s = true) : RegInv s := by
  simp only [regCheck, Bool.and_eq_true, decide_eq_true_eq] at h
  exact ⟨h.1.1.1.1.1, h.1.1.1.1.2, h.1.1.1.2, h.1.1.2, h.1.2, h.2⟩

/-- The whole invariant as a check that evaluates. -/
def invCheck (s : State) : Bool :=
  regCheck s && decide (MemInv s) && decide (FrameInv s) && decide (MapperInv s)

theorem inv_of (s : State) (h : invCheck s = true) : Inv s := by
  simp only [invCheck, Bool.and_eq_true, decide_eq_true_eq] at h
  exact ⟨regInv_of s h.1.1.1, h.1.1.2, h.1.2, h.2⟩

/-- A cycle the model takes has a next state, this one. -/
theorem step_of (s : State) (h : (s.everReset || s.pins.rst) && writesInRange s.params s.pins.memWrites = true) :
    step s = .next (endCycle (cycleResult s)) := by
  simp only [Bool.and_eq_true, Bool.or_eq_true, decide_eq_true_eq] at h
  exact (step_eq_next s _).2 ⟨h.1, h.2, rfl⟩

/-- A state that meets the hypotheses of a statement about a step, with what the step leads to. -/
abbrev StepWitness (P : State → State → Prop) : Prop := ∃ s t, step s = .next t ∧ P s t

theorem stepWitness (P : State → State → Prop) (s : State)
    (h : (s.everReset || s.pins.rst) && writesInRange s.params s.pins.memWrites = true)
    (hp : P s (endCycle (cycleResult s))) : StepWitness P := ⟨s, _, step_of s h, hp⟩

/-- The three columns of the verdict table are met. -/
theorem phases : (∃ s : State, s.state = .idle) ∧ (∃ s : State, s.state.phase = .busy) ∧ ∃ s : State, s.state = .error :=
  ⟨⟨base, rfl⟩, ⟨mapper .pre, rfl⟩, ⟨errorState, rfl⟩⟩

theorem witness_RstEdgeResetsEveryRegister :
    ∃ (s : State) (a : Nat), writesInRange s.params s.pins.memWrites = true ∧ s.pins.rst = true ∧
      ∀ c ∈ s.pins.memWrites, c.1 ≠ a :=
  ⟨withPins (mapper .pause) { rst := true, memWrites := [(0xFFFFFF, 9)] }, 0xFFFFFE, by decide⟩

theorem witness_UnresetMachineIsRefusedUntilOneRstEdge :
    (∃ s : State, s.everReset = false ∧ s.pins.rst = false) ∧
    ∃ s : State, s.everReset = false ∧ s.pins.rst = true ∧ writesInRange s.params s.pins.memWrites = true :=
  ⟨⟨{ base with everReset := false }, by decide⟩, ⟨{ base with everReset := false, inputs := [{ rst := true }] }, by decide⟩⟩

theorem witness_DecodeFollowsTheOpcodeMap :
    (∀ op : BitVec 4, ∃ w : Word, w.extractLsb' 28 4 = op) ∧
    (∃ w : Word, (w.extractLsb' 28 4).toNat = 9) ∧ ∃ w : Word, (w.extractLsb' 28 4).toNat = 15 :=
  ⟨fun op => ⟨op ++ 0#28, by revert op; decide⟩, ⟨0x90000000, by decide⟩, ⟨0xFFFFFFFF, by decide⟩⟩

theorem witness_IgnoredArgBitsHaveNoEffect :
    base.params.Legal ∧ Params.Legal ⟨7, 13, 1, 1⟩ ∧ Params.Legal ⟨14, 28, 0xFFFFFFFF, 1⟩ := by decide

theorem witness_AssembledWordsAreWellFormed :
    params.Legal ∧ (∀ w, AsmOp.config 4095 4095 ≠ .word w) ∧
      assembleOp params (.config 4095 4095) = some [0x10000FFF, 0x20000FFF, 0x30FFE001] ∧
      assembleOp params (.streamFrame [0, 255]) = some [0x50000000, 0x60000000, 0x600000FF, 0x70000000] :=
  ⟨by decide, nofun, by decide, by decide⟩

theorem witness_StepRunsTheDecodedCommand :
    (∃ s : State, Runs s ∧ s.pins.rst = false ∧ s.pins.cmdValid = true ∧ s.pins.memWrites = [(0xFFFFFF, 1)]) ∧
    decodeTableWord 32 0x10000040 = some (.setw 64) ∧ decodeTableWord 32 0xFFFFFFFF = some .reservedF :=
  ⟨⟨withPins base { offer 0x10000005 with memWrites := [(0xFFFFFF, 1)] }, by decide⟩, by decide, by decide⟩

theorem witness_StepWithoutACommandIsTheOwnAction : ∃ s : State, Runs s ∧ QuietPort s :=
  ⟨withPins (l33 .run) ideal, by decide⟩

theorem witness_SinkFailureWinsOverEveryCommand :
    (∀ q ∈ [SeqState.pre, .emit, .pad], ∃ s : State, s.state = q ∧ s.pins.txErr = true) ∧
    (∀ q ∈ [SeqState.preFl, .blkFl, .endFl], ∃ s : State, s.state = q ∧ s.pins.flErr = true) :=
  ⟨fun q _ => ⟨withPins (mapper q) { txErr := true }, rfl, rfl⟩,
    fun q _ => ⟨withPins (mapper q) { flErr := true }, rfl, rfl⟩⟩

theorem witness_CommandErrorKeepsTheOwnActionsWrites :
    (∃ s : State, ownError s = none ∧ verdict Opcode.setw s.state s.cfgSrc = .error .cmdState) ∧
    ∃ s : State, ownError s = none ∧ verdict Opcode.reserved s.state s.cfgSrc = .error .illegalCmd :=
  ⟨⟨withPins (mapper .pre) ideal, by decide⟩, ⟨withPins (stream .endFl) ideal, by decide⟩⟩

theorem witness_StalledWordHasNoEffect :
    ∃ (s : State) (p : CycleInput) (rest : List CycleInput), s.inputs = p :: rest ∧ p.rst = false ∧
      (outputsOf s p).cmdReady = false :=
  ⟨withPins (stream .pause) (offer 0x60000001), offer 0x60000001, [], by decide⟩

theorem witness_NopChangesNothing : (∃ s : State, s.state = .idle) ∧ ∃ s : State, s.state = .error :=
  ⟨phases.1, phases.2.2⟩
theorem witness_SetwSetsTheWidth :
    (∃ s : State, s.state = .idle) ∧ (∃ s : State, s.state.phase = .busy) ∧ ∃ s : State, s.state = .error := phases
theorem witness_SethSetsTheHeight :
    (∃ s : State, s.state = .idle) ∧ (∃ s : State, s.state.phase = .busy) ∧ ∃ s : State, s.state = .error := phases
theorem witness_SetlenSetsTheLength :
    (∃ s : State, s.state = .idle) ∧ (∃ s : State, s.state.phase = .busy) ∧ ∃ s : State, s.state = .error := phases
theorem witness_SetcfgSetsTheConfiguration :
    (∃ s : State, s.state = .idle) ∧ (∃ s : State, s.state.phase = .busy) ∧ ∃ s : State, s.state = .error := phases

theorem witness_StartBeginsAFrameOrRaisesPrecond :
    (∃ s : State, s.state = .idle ∧ s.cfgSrc = true) ∧
    (∃ s : State, s.state = .idle ∧ s.cfgSrc = false ∧ s.len.toNat = s.width.toNat * s.height.toNat) ∧
    (∃ s : State, s.state = .idle ∧ s.cfgSrc = false ∧ s.len.toNat + 1 = s.width.toNat * s.height.toNat) ∧
    (∃ s : State, s.state.phase = .busy) ∧ ∃ s : State, s.state = .error :=
  ⟨⟨stream .idle, by decide⟩, ⟨{ base with width := 4095, height := 4095, len := 16769025 }, by decide⟩,
    ⟨{ base with len := 4095 }, by decide⟩, phases.2⟩

theorem witness_SampleEntersThePackerInRun :
    (∃ s : State, s.state = .run ∧ s.cfgSrc = true ∧ s.bitCnt = 7) ∧
    (∃ s : State, s.state = .run ∧ s.cfgSrc = true ∧ s.bitCnt = 0) ∧
    (∃ s : State, s.state.phase = .busy ∧ s.cfgSrc = true ∧ s.state ≠ .run) ∧
    (∃ s : State, s.state = .idle) ∧ (∃ s : State, s.state.phase = .busy ∧ s.cfgSrc = false) ∧
    ∃ s : State, s.state = .error :=
  ⟨⟨{ stream .run with bitCnt := 7 }, by decide⟩, ⟨stream .run, by decide⟩, ⟨stream .endFl, by decide⟩, phases.1,
    ⟨mapper .run, by decide⟩, phases.2.2⟩

theorem witness_EndClosesTheInputInRun :
    (∃ s : State, s.state = .run ∧ s.cfgSrc = true ∧ s.cfgTail = true ∧ s.bitCnt ≠ 0) ∧
    (∃ s : State, s.state = .run ∧ s.cfgSrc = true ∧ s.cfgTail = true ∧ s.bitCnt = 0) ∧
    (∃ s : State, s.state = .run ∧ s.cfgSrc = true ∧ s.cfgTail = false) ∧
    (∃ s : State, s.state.phase = .busy ∧ s.cfgSrc = true ∧ s.state ≠ .run) ∧
    (∃ s : State, s.state = .idle) ∧ (∃ s : State, s.state.phase = .busy ∧ s.cfgSrc = false) ∧
    ∃ s : State, s.state = .error :=
  ⟨⟨{ stream .run with cfg := 3, bitCnt := 7 }, by decide⟩, ⟨{ stream .run with cfg := 3 }, by decide⟩,
    ⟨stream .run, by decide⟩, ⟨stream .pre, by decide⟩, phases.1, ⟨mapper .run, by decide⟩, phases.2.2⟩

theorem witness_ClearLeavesErrorAndNeverCancels :
    (∃ s : State, s.state = .idle) ∧ (∃ s : State, s.state = .error) ∧ ∃ s : State, s.state.phase = .busy :=
  ⟨phases.1, phases.2.2, phases.2.1⟩
theorem witness_ReservedOpcodesRaiseIllegalCmd :
    (∃ s : State, s.state = .idle) ∧ (∃ s : State, s.state.phase = .busy) ∧ ∃ s : State, s.state = .error := phases

theorem witness_StatesWithoutAnOwnAction :
    (∃ s : State, s.state = .idle) ∧ (∃ s : State, s.state = .error) ∧ ∃ s : State, s.state = .run ∧ s.cfgSrc = true :=
  ⟨phases.1, phases.2.2, ⟨stream .run, by decide⟩⟩

theorem witness_ByteStatesOfferUntilTheSinkAnswers :
    ∀ q ∈ [SeqState.pre, .emit, .pad], ∀ err ready : Bool,
      ∃ s : State, s.state = q ∧ s.pins.rst = false ∧ s.pins.txErr = err ∧ s.pins.txReady = ready :=
  fun q _ err ready => ⟨withPins (mapper q) { txErr := err, txReady := ready }, rfl, rfl, rfl, rfl⟩

theorem witness_FlushStatesWaitForTheSink :
    ∀ q ∈ [SeqState.preFl, .blkFl, .endFl], ∀ err done : Bool,
      ∃ s : State, s.state = q ∧ s.pins.rst = false ∧ s.pins.flErr = err ∧ s.pins.flDone = done :=
  fun q _ err done => ⟨withPins (mapper q) { flErr := err, flDone := done }, rfl, rfl, rfl, rfl⟩

/-- A 1 × 1 mapper-mode frame in RUN: with the rotation mapping its first index is 0 = LEN − 1, with the literal one it
is 1 = LEN (2.4). -/
def single (cfg : BitVec 3) : State := { mapper .run with width := 1, height := 1, len := 1, cfg := cfg }

theorem witness_RunInMapperModeReadsOrEndsInput :
    (∃ s : State, s.state = .run ∧ s.cfgSrc = false ∧ s.index = -1) ∧
    (∃ s : State, s.state = .run ∧ s.cfgSrc = false ∧ s.index = s.len.toNat) ∧
    (∃ s : State, s.state = .run ∧ s.cfgSrc = false ∧ s.index = -1 ∧ s.cfgTail = true ∧ s.bitCnt = 4) ∧
    (∃ s : State, s.state = .run ∧ s.cfgSrc = false ∧ s.index = -1 ∧ s.cfgTail = true ∧ s.bitCnt = 0) ∧
    (∃ s : State, s.state = .run ∧ s.cfgSrc = false ∧ s.index = s.len.toNat ∧ s.cfgTail = false ∧ s.bitCnt = 7) ∧
    (∃ s : State, s.state = .run ∧ s.cfgSrc = false ∧ s.index = 0 ∧ s.index < s.len.toNat) ∧
    ∃ s : State, s.state = .run ∧ s.cfgSrc = false ∧ 0 ≤ s.index ∧ s.index + 1 = s.len.toNat :=
  ⟨⟨{ l33 .run with curY := 2 }, by decide⟩, ⟨single 4, by decide⟩,
    ⟨{ l33 .run with curY := 2, bitCnt := 4 }, by decide⟩, ⟨{ l33 .run with curY := 2 }, by decide⟩,
    ⟨{ single 4 with bitCnt := 7 }, by decide⟩, ⟨{ l33 .run with curY := 1 }, by decide⟩,
    ⟨{ l33 .run with curX := 1 }, by decide⟩⟩

theorem witness_FetchTakesTheByteAtTheIndex :
    ∃ s : State, RegInv s ∧ s.state = .run ∧ s.cfgSrc = false ∧ 0 ≤ s.index ∧ s.index < s.len.toNat ∧
      s.index.toNat ∉ s.unstable :=
  ⟨{ l33 .run with unstable := [0] }, regInv_of _ (by decide), by decide⟩

theorem witness_OutputsFollowTheStateTable :
    (∀ s ∈ [base, { mapper .pre with preCnt := 10 }, mapper .preFl, mapper .fetch, errorState, mapper .blkFl,
        { mapper .emit with acc := 255, bitCnt := 8, byteCnt := 7 }, { mapper .pad with byteCnt := 8 },
        { mapper .pause with pauseCnt := 1 }, { mapper .endFl with eoi := true }, stream .run], RegInv s) ∧
    (RegInv (single 0) ∧ (single 0).index = 0 ∧ (single 0).len = 1) ∧
    (RegInv (single 4) ∧ (single 4).index = 1 ∧ (single 4).len = 1) ∧
    ∃ s : State, RegInv s ∧ s.state = .run ∧ s.cfgSrc = false ∧ s.index = -1 := by
  refine ⟨?_, ⟨regInv_of _ (by decide), by decide⟩, ⟨regInv_of _ (by decide), by decide⟩,
    ⟨{ l33 .run with curY := 2 }, regInv_of _ (by decide), by decide⟩⟩
  intro s hs
  apply regInv_of
  revert s
  decide

theorem witness_ReadbackMap :
    WidthInv base ∧
    WidthInv { base with width := 4095, height := 4095, len := 0xFFFFFF, curX := 8191, curY := 8191 } := by decide

theorem witness_EveryErrorHasItsCauseAndRecord :
    StepWitness (fun s t => s.state ≠ .error ∧ t.state = .error ∧ t.err = .txIo) ∧
    StepWitness (fun s t => s.state ≠ .error ∧ t.state = .error ∧ t.err = .flushIo) ∧
    StepWitness (fun s t => s.state ≠ .error ∧ t.state = .error ∧ t.err = .precond) ∧
    StepWitness (fun s t => s.state ≠ .error ∧ t.state = .error ∧ t.err = .illegalCmd) ∧
    StepWitness (fun s t => s.state ≠ .error ∧ t.state = .error ∧ t.err = .cmdState) :=
  ⟨stepWitness _ (withPins (mapper .pad) { txErr := true }) (by decide) (by decide),
    stepWitness _ (withPins (mapper .endFl) { flErr := true }) (by decide) (by decide),
    stepWitness _ (withPins { base with len := 4095 } (offer 0x50000000)) (by decide) (by decide),
    stepWitness _ (withPins (stream .run) (offer 0xF0000000)) (by decide) (by decide),
    stepWitness _ (withPins base (offer 0x60000005)) (by decide) (by decide)⟩

theorem witness_OnlyResetOrClearLeavesError :
    StepWitness (fun s _ => s.state = .error ∧ s.pins.rst = false ∧ s.pins.cmdValid = false) ∧
    StepWitness (fun s _ => s.state = .error ∧ s.pins.rst = false ∧ s.pins.cmdValid = true ∧
      decode s.pins.cmdWord ≠ .clear) :=
  ⟨stepWitness _ (withPins errorState { txErr := true }) (by decide) (by decide),
    stepWitness _ (withPins errorState (offer 0x50000000)) (by decide) (by decide)⟩

theorem witness_IdleIsLeftOnlyByStartOrAnError :
    StepWitness (fun s t => s.state = .idle ∧ t.state = .pre) ∧
    StepWitness (fun s t => s.state = .idle ∧ t.state = .error ∧ t.err = .precond) ∧
    StepWitness (fun s t => s.state = .idle ∧ t.state = .error ∧ t.err = .cmdState) ∧
    StepWitness (fun s t => s.state = .idle ∧ t.state = .error ∧ t.err = .illegalCmd) :=
  ⟨stepWitness _ (withPins base (offer 0x50000000)) (by decide) (by decide),
    stepWitness _ (withPins { base with len := 4095 } (offer 0x50000000)) (by decide) (by decide),
    stepWitness _ (withPins base (offer 0x70000000)) (by decide) (by decide),
    stepWitness _ (withPins base (offer 0x90000000)) (by decide) (by decide)⟩

theorem witness_ConfigurationIsFrozenDuringAFrame :
    StepWitness (fun s _ => s.state.phase = .busy ∧ s.pins.rst = false ∧ decode s.pins.cmdWord = .setw 3) :=
  stepWitness _ (withPins (mapper .pre) (offer 0x10000003)) (by decide) (by decide)

theorem witness_DoneRisesOnlyWithTheTrailingFlush : StepWitness (fun s t => s.done = false ∧ t.done = true) :=
  stepWitness _ (withPins l33EndFl ideal) (by decide) (by decide)

theorem witness_CursorOnlyMovesForward :
    StepWitness (fun s t => RegInv s ∧ s.state.phase = .busy ∧ s.pins.rst = false ∧ t.curX = 0 ∧ t.curY = 1) ∧
    StepWitness (fun s t => RegInv s ∧ s.state.phase = .busy ∧ s.pins.rst = false ∧ t.curX = s.curX) :=
  ⟨stepWitness _ (withPins { l33 .run with curX := 1 } ideal) (by decide) ⟨regInv_of _ (by decide), by decide⟩,
    stepWitness _ (withPins l33EndFl ideal) (by decide) ⟨regInv_of _ (by decide), by decide⟩⟩

theorem witness_StreamFrameIgnoresTheMapper :
    StepWitness (fun s _ => s.state.phase = .busy ∧ s.cfgSrc = true ∧ s.state ≠ .fetch ∧ s.pins.rst = false) :=
  stepWitness _ (withPins (stream .run) (offer 0x60000080)) (by decide) (by decide)

theorem witness_UnrequestedSinkAnswersAreIgnored :
    (∃ (s : State) (p : CycleInput) (rest : List CycleInput), s.inputs = p :: rest ∧ s.state.offersByte = false) ∧
    ∃ (s : State) (p : CycleInput) (rest : List CycleInput), s.inputs = p :: rest ∧ s.state.requestsFlush = false :=
  ⟨⟨withPins (mapper .preFl) ideal, ideal, [], by decide⟩, ⟨withPins (mapper .pre) ideal, ideal, [], by decide⟩⟩

theorem witness_NothingButTheHostWritesTheSampleMemory :
    (∃ t, exec (.setw 5) base = .next t) ∧
    StepWitness (fun s _ => s.pins.memWrites = [(0xFFFFFF, 1)] ∧ ∀ c ∈ s.pins.memWrites, c.1 ≠ 0) :=
  ⟨⟨_, rfl⟩, stepWitness _ (withPins (l33 .run) { ideal with memWrites := [(0xFFFFFF, 1)] }) (by decide) (by decide)⟩

theorem witness_HostWriteDuringAFrameMakesReadsDraws :
    ((mapper .run).mapperFrame = true ∧ 4095 < (mapper .run).len.toNat) ∧ base.mapperFrame = false ∧
    (mapper .run).len.toNat ≤ 4096 ∧
    ∃ s : State, s.state = .fetch ∧ s.isUnstable s.readAddr.toNat = true :=
  ⟨by decide, by decide, by decide, ⟨{ l33 .fetch with unstable := [1], readAddr := 1 }, by decide⟩⟩

theorem witness_PauseLastsExactlyItsCount :
    (∀ c : BitVec 32, ∃ s : State, s.state = .pause ∧ s.pauseCnt = c) ∧
    ∃ (s : State) (n : Nat), s.state = .pause ∧ s.everReset = true ∧ s.pauseCnt.toNat = n + 1 ∧
      s.inputs.length = n + 1 ∧
      ∀ p ∈ s.inputs.take (n + 1), p.rst = false ∧ writesInRange s.params p.memWrites = true ∧
        (p.cmdValid = true → ∀ c, verdict (decode p.cmdWord).opcode .pause s.cfgSrc ≠ .error c) := by
  refine ⟨fun c => ⟨{ stream .pause with pauseCnt := c }, rfl, rfl⟩,
    { stream .pause with pauseCnt := 2, inputs := [offer 0x80000000, offer 0x70000000] }, 1, rfl, rfl, rfl, rfl, ?_⟩
  intro p hp
  have h : p = offer 0x80000000 ∨ p = offer 0x70000000 := by simpa using hp
  rcases h with rfl | rfl
  · exact ⟨rfl, rfl, fun _ c => by cases c <;> decide⟩
  · exact ⟨rfl, rfl, fun _ c => by cases c <;> decide⟩

/-- A cycle in which the sink is silent and NOP or CLEAR is offered. -/
def silent (w : Word) : CycleInput := { cmdValid := true, cmdWord := w }

theorem witness_UnansweredWaitsChangeNothing :
    (∀ s ∈ [stream .pre, stream .endFl, stream .run], s.everReset = true ∧
      ((s.state.offersByte = true ∨ s.state.requestsFlush = true) ∨ (s.state = .run ∧ s.cfgSrc = true))) ∧
    ∀ p ∈ [silent 0x00000000, silent 0x80000000], p.rst = false ∧ p.memWrites = [] ∧ p.writeAnswer = .wait ∧
      p.flushAnswer = .wait ∧ (p.cmdValid = true → decode p.cmdWord = .nop ∨ decode p.cmdWord = .clear) := by
  decide

theorem witness_StartedMapperFrameHasTheCycleCount :
    ∃ s t : State, s.state = .idle ∧ s.cfgSrc = false ∧ s.preOk = true ∧ exec .start s = .next t :=
  ⟨l33End, _, by decide, by decide, by decide, rfl⟩

theorem witness_IdealSinkCycleCountsDown :
    (∃ s : State, Inv s ∧ Runs s ∧ s.mapperFrame = true ∧ IdealSink s ∧ QuietPort s ∧ s.cyclesLeft = 1) ∧
    ∃ s : State, Inv s ∧ Runs s ∧ s.mapperFrame = true ∧ IdealSink s ∧ QuietPort s ∧ s.cyclesLeft = 11 :=
  ⟨⟨withPins l33EndFl ideal, inv_of _ (by decide), by decide⟩,
    ⟨withPins (l33 .run) ideal, inv_of _ (by decide), by decide⟩⟩

theorem witness_MapperSequenceIsCompleteAndInBounds : (1 ≤ 1 ∧ 3 ∈ mapperIdx 2 2 (2 * 2) 1) ∧
    (0 ≤ 1 ∧ 12 ∈ mapperIdx 4 4 (4 * 4) 0) := by decide

theorem witness_StepKeepsTheRegisterInvariants : StepWitness (fun s _ => RegInv s) :=
  stepWitness _ (withPins (l33 .run) ideal) (by decide) (regInv_of _ (by decide))
theorem witness_StepKeepsTheMemoryCanonical : StepWitness (fun s _ => MemInv s) :=
  stepWitness _ (withPins (l33 .run) { ideal with memWrites := [(2, 7)] }) (by decide) (by decide)
theorem witness_StepKeepsTheFrameRelation :
    StepWitness (fun s t => RegInv s ∧ FrameInv s ∧ s.state = .endFl ∧ t.done = true) ∧
    StepWitness (fun s t => RegInv s ∧ FrameInv s ∧ s.state.phase = .busy ∧ t.state = .error) :=
  ⟨stepWitness _ (withPins l33EndFl ideal) (by decide) ⟨regInv_of _ (by decide), by decide⟩,
    stepWitness _ (withPins l33EndFl (offer 0x50000000)) (by decide) ⟨regInv_of _ (by decide), by decide⟩⟩
theorem witness_StepKeepsTheMapperRelation : StepWitness (fun s _ => RegInv s ∧ MapperInv s) :=
  stepWitness _ (withPins (l33 .run) ideal) (by decide) ⟨regInv_of _ (by decide), by decide⟩

theorem witness_CompletedMapperFrameTrace :
    ∃ s : State, Inv s ∧ Runs s ∧ QuietPort s ∧ s.state = .endFl ∧ s.cfgSrc = false ∧ StableBuffer s ∧
      s.pins.flushAnswer = .ok :=
  ⟨withPins l33EndFl ideal, inv_of _ (by decide), by decide⟩

end Sys2Proof.Tests
end

section
/-! PROOFS. The outputs of every state (R165, R29). -/

namespace Sys2Proof.Machine

/-- The output pins of one row of the table of R165, the address as a number. -/
def Outputs.row (o : Outputs) : Bool × Byte × Bool × Bool × Nat × Bool :=
  (o.txValid, o.txData, o.flReq, o.memEn, o.memAddr.toNat, o.busyO)

/-- A read is issued in RUN, in mapper mode, with the index in bounds (R106). -/
theorem State.issuesRead_eq_true_iff (s : State) :
    s.issuesRead = true ↔ s.state = .run ∧ s.cfgSrc = false ∧ 0 ≤ s.index ∧ s.index < s.len.toNat := by
  simp [State.issuesRead, State.indexInBounds, and_assoc]

theorem State.issuesRead_of_ne_run {s : State} (h : s.state ≠ .run) : s.issuesRead = false :=
  Bool.eq_false_iff.mpr fun hi => h (s.issuesRead_eq_true_iff.mp hi).1

theorem State.issuesRead_of_stream {s : State} (h : s.cfgSrc = true) : s.issuesRead = false :=
  Bool.eq_false_iff.mpr fun hi => by
    obtain ⟨-, hsrc, -⟩ := s.issuesRead_eq_true_iff.mp hi
    simp [h] at hsrc

theorem State.issuesRead_of_index_outside {s : State} (h : s.index < 0 ∨ (s.len.toNat : Int) ≤ s.index) :
    s.issuesRead = false := by
  refine Bool.eq_false_iff.mpr fun hi => ?_
  obtain ⟨-, -, hlo, hhi⟩ := s.issuesRead_eq_true_iff.mp hi
  omega

/-- The address a read drives is the index itself (R106): an index below LEN fits the `ADDR_BITS` bits of the address. -/
theorem addrValue_index {s : State} (hw : WidthInv s) (h : s.issuesRead = true) :
    (addrValue s.params s.index.toNat).toNat = s.index.toNat := by
  obtain ⟨⟨-, -, -, haddr, -⟩, -, -, hlen, -⟩ := hw
  obtain ⟨-, -, hlo, hhi⟩ := s.issuesRead_eq_true_iff.mp h
  exact lowBits_eq _ _ _ (by omega) haddr

/-- The row of a cycle without a read depends on STATE alone, but for ACC in EMIT. -/
theorem outputsOf_row_without_read {s : State} {p : CycleInput} {q : SeqState} (hr : p.rst = false) (hs : s.state = q)
    (h : s.issuesRead = false) :
    (outputsOf s p).row =
      (q.offersByte, { s with state := q }.txData, q.requestsFlush, false, 0, decide (q.phase = .busy)) := by
  subst hs
  simp [Outputs.row, outputsOf, State.busy, hr, h]

/-- The row of a cycle that issues a mapper read (R106, R154). -/
theorem outputsOf_row_with_read {s : State} {p : CycleInput} (hw : WidthInv s) (hr : p.rst = false)
    (h : s.issuesRead = true) :
    (outputsOf s p).row = (false, 0, false, true, s.index.toNat, true) := by
  have hrun : s.state = .run := (s.issuesRead_eq_true_iff.mp h).1
  simp [Outputs.row, outputsOf, State.busy, State.txData, SeqState.offersByte, SeqState.requestsFlush, SeqState.phase,
    hr, h, hrun, addrValue_index hw h]

/-- The row of a state other than RUN. -/
theorem outputsOf_row_of_ne_run {s : State} {p : CycleInput} {q : SeqState} (hr : p.rst = false) (hq : q ≠ .run)
    (hs : s.state = q) :
    (outputsOf s p).row =
      (q.offersByte, { s with state := q }.txData, q.requestsFlush, false, 0, decide (q.phase = .busy)) :=
  outputsOf_row_without_read hr hs (State.issuesRead_of_ne_run (hs ▸ hq))

/-- Settles O31: RUN splits on whether a read is issued; every other row of the table is the general row of a cycle
without a read, evaluated at its state. -/
theorem outputsFollowTheStateTable : Obligations.OutputsFollowTheStateTable := by
  intro s p hinv hr
  refine ⟨outputsOf_row_of_ne_run hr nofun, outputsOf_row_of_ne_run hr nofun, outputsOf_row_of_ne_run hr nofun,
    fun hs hsrc hlo hhi => ?_, fun hs _ hidx => ?_, fun hs hsrc => ?_,
    outputsOf_row_of_ne_run hr nofun, outputsOf_row_of_ne_run hr nofun, outputsOf_row_of_ne_run hr nofun,
    outputsOf_row_of_ne_run hr nofun, outputsOf_row_of_ne_run hr nofun, outputsOf_row_of_ne_run hr nofun,
    outputsOf_row_of_ne_run hr nofun, rfl, decide_eq_true_iff, rfl, ?_⟩
  · exact outputsOf_row_with_read hinv.1 hr (s.issuesRead_eq_true_iff.mpr ⟨hs, hsrc, hlo, hhi⟩)
  · exact outputsOf_row_without_read hr hs (State.issuesRead_of_index_outside hidx)
  · exact outputsOf_row_without_read hr hs (State.issuesRead_of_stream hsrc)
  · simp [outputsOf, hr]

end Sys2Proof.Machine
end

section
/-! PROOFS. The decoder by the OP field (R80 to R84), for every word and every ARG. -/

namespace Sys2Proof

/-- The command of the same opcode that reads its operand from `arg` (R82). -/
def Instr.withArg (arg : Arg) : Instr → Instr
  | .setw _ => .setw arg
  | .seth _ => .seth arg
  | .setlen _ => .setlen arg
  | .setcfg _ => .setcfg (arg.setWidth 3)
  | .sample _ => .sample (arg.setWidth 8)
  | i => i

@[simp] theorem Instr.withArg_opBits (arg : Arg) (i : Instr) : (i.withArg arg).opBits = i.opBits := by
  cases i <;> rfl

@[simp] theorem Instr.withArg_opcode (arg : Arg) (i : Instr) : (i.withArg arg).opcode = i.opcode := by
  cases i <;> rfl

@[simp] theorem opField_append (op : BitVec 4) (arg : Arg) : opField (op ++ arg) = op :=
  BitVec.extractLsb'_append_eq_left

@[simp] theorem argField_append (op : BitVec 4) (arg : Arg) : argField (op ++ arg) = arg :=
  BitVec.extractLsb'_append_eq_right

theorem argField_setWidth (w : Word) {n : Nat} (hn : n ≤ 28) : (argField w).setWidth n = w.extractLsb' 0 n := by
  ext k hk
  simp [argField, show k < 28 by omega]

/-- The four bits `decode` reads are the OP field. -/
theorem opField_getLsbD (w : Word) {k : Nat} (hk : k < 4) : (opField w).getLsbD k = w.getLsbD (28 + k) := by
  simp [opField, hk]

/-- A word with the OP value of a command decodes to that command, with the operand the word's ARG field gives. -/
theorem decode_of_opField {w : Word} {i : Instr} (h : opField w = i.opBits) : decode w = i.withArg (argField w) := by
  have hbit : ∀ k < 4, w.getLsbD (28 + k) = i.opBits.getLsbD k := fun k hk => h ▸ (opField_getLsbD w hk).symm
  unfold decode
  rw [hbit 3 (by decide), hbit 2 (by decide), hbit 1 (by decide), hbit 0 (by decide)]
  cases i <;> simp [Instr.opBits, Instr.withArg, argField_setWidth]

/-- Every OP value is the value of a command (R87). -/
theorem exists_opBits_eq (op : BitVec 4) : ∃ i : Instr, i.opBits = op :=
  ⟨decode (op ++ 0#28), by revert op; decide⟩

theorem decode_opBits (w : Word) : (decode w).opBits = opField w := by
  obtain ⟨i, hi⟩ := exists_opBits_eq (opField w)
  rw [decode_of_opField hi.symm, Instr.withArg_opBits, hi]

theorem decode_opcode_of_opField {w : Word} {i : Instr} (h : opField w = i.opBits) : (decode w).opcode = i.opcode := by
  rw [decode_of_opField h, Instr.withArg_opcode]

/-- The bits of ARG a command does not read do not change what the word decodes to (R84). -/
theorem decode_append (i : Instr) (arg : Arg) : decode (i.opBits ++ arg) = i.withArg arg := by
  rw [decode_of_opField (opField_append _ _), argField_append]

/-- The reserved class is the commands of an OP value above 8 (R83, R85). -/
theorem Instr.opcode_eq_reserved_iff (i : Instr) : i.opcode = .reserved ↔ 8 < i.opBits.toNat := by
  cases i <;> simp [Instr.opcode, Instr.opBits]

/-- Settles O6: the nine commands row by row, the reserved class by its bound on the OP value. -/
theorem decodeFollowsTheOpcodeMap : Obligations.DecodeFollowsTheOpcodeMap := fun w =>
  ⟨decode_opBits w, decode_opcode_of_opField (i := .nop), decode_opcode_of_opField (i := .setw 0),
    decode_opcode_of_opField (i := .seth 0), decode_opcode_of_opField (i := .setlen 0),
    decode_opcode_of_opField (i := .setcfg 0), decode_opcode_of_opField (i := .start),
    decode_opcode_of_opField (i := .sample 0), decode_opcode_of_opField (i := .endInput),
    decode_opcode_of_opField (i := .clear),
    fun h => (decode w).opcode_eq_reserved_iff.mpr ((decode_opBits w).symm ▸ h)⟩

end Sys2Proof
end

section
/-! PROOFS. The cycle of a command whose verdict is an error or an ignore (R170, R208), and the reserved opcodes
(R181). -/

namespace Sys2Proof.Machine

theorem exec_of_verdict_error {i : Instr} {s : State} {c : ErrCode} (h : verdict i.opcode s.state s.cfgSrc = .error c) :
    exec i s = .next (abortedBy c s) := by
  cases ho : ownError s <;> simp [exec_eq_next, commandCycle, abortedBy, h, ho]

theorem exec_of_verdict_ignore {i : Instr} {s : State} (h : verdict i.opcode s.state s.cfgSrc = .ignore) :
    exec i s = .next (ownCycle s) := by
  cases ho : ownError s <;> simp [exec_eq_next, commandCycle, ownCycle, h, ho]

/-- IDLE and ERROR have no own action whose writes or error could stand beside the command's error. -/
theorem abortedBy_of_not_busy {s : State} (c : ErrCode) (h : s.state.phase ≠ .busy) :
    abortedBy c s = raiseError c s.state s := by
  simp [abortedBy, ownError_none_of_not_busy s h, ownStep_of_not_busy s h]

/-- The reserved row of the verdict table (R171). -/
theorem verdict_reserved (st : SeqState) (stream : Bool) :
    verdict .reserved st stream = if st.phase = .error then .ignore else .error .illegalCmd := by
  cases st <;> rfl

theorem cmdReady_reserved (st : SeqState) (stream : Bool) : cmdReady .reserved st stream = true := by
  rw [cmdReady, verdict_reserved]
  split <;> rfl

/-- Settles O25: a reserved word decodes by its OP value alone, and its cycle follows its row of the verdict table. -/
theorem reservedOpcodesRaiseIllegalCmd : Obligations.ReservedOpcodesRaiseIllegalCmd := by
  refine ⟨fun arg => ⟨decode_append .reserved9 arg, decode_append .reservedA arg, decode_append .reservedB arg,
    decode_append .reservedC arg, decode_append .reservedD arg, decode_append .reservedE arg,
    decode_append .reservedF arg⟩, fun i hi s => ?_⟩
  have hop : i.opcode = .reserved := by revert i; decide
  have hverdict := verdict_reserved s.state s.cfgSrc
  rw [← hop] at hverdict
  refine ⟨fun hs => ?_, fun hs => ?_, fun hs => ?_, fun stream => hop ▸ cmdReady_reserved s.state stream⟩
  · have hidle : s.state.phase ≠ .busy := by rw [hs]; decide
    rw [exec_of_verdict_error (by rw [hverdict, hs]; rfl), abortedBy_of_not_busy _ hidle, raiseError, hs]
  · exact exec_of_verdict_error (by rw [hverdict, hs]; rfl)
  · have herror : s.state.phase ≠ .busy := by rw [hs]; decide
    rw [exec_of_verdict_ignore (by rw [hverdict, hs]; rfl), ownCycle_of_not_busy s herror]

end Sys2Proof.Machine
end

section
/-! PROOFS. The handshakes with the sink (R24, R25): a byte offer and a flush request fail, wait or are answered. -/

namespace Sys2Proof.Machine

/-! The answer the sink's pins give. -/

theorem CycleInput.writeAnswer_of_txErr {p : CycleInput} (herr : p.txErr = true) : p.writeAnswer = .fail := by
  simp [CycleInput.writeAnswer, herr]

theorem CycleInput.writeAnswer_of_no_answer {p : CycleInput} (herr : p.txErr = false) (hready : p.txReady = false) :
    p.writeAnswer = .wait := by
  simp [CycleInput.writeAnswer, herr, hready]

theorem CycleInput.writeAnswer_of_txReady {p : CycleInput} (herr : p.txErr = false) (hready : p.txReady = true) :
    p.writeAnswer = .ok := by
  simp [CycleInput.writeAnswer, herr, hready]

theorem CycleInput.flushAnswer_of_flErr {p : CycleInput} (herr : p.flErr = true) : p.flushAnswer = .fail := by
  simp [CycleInput.flushAnswer, herr]

theorem CycleInput.flushAnswer_of_no_answer {p : CycleInput} (herr : p.flErr = false) (hdone : p.flDone = false) :
    p.flushAnswer = .wait := by
  simp [CycleInput.flushAnswer, herr, hdone]

theorem CycleInput.flushAnswer_of_flDone {p : CycleInput} (herr : p.flErr = false) (hdone : p.flDone = true) :
    p.flushAnswer = .ok := by
  simp [CycleInput.flushAnswer, herr, hdone]

/-! The states of the two handshakes. -/

theorem SeqState.offersByte_eq_true_iff (q : SeqState) : q.offersByte = true ↔ q = .pre ∨ q = .emit ∨ q = .pad := by
  cases q <;> simp [SeqState.offersByte]

theorem SeqState.requestsFlush_eq_true_iff (q : SeqState) :
    q.requestsFlush = true ↔ q = .preFl ∨ q = .blkFl ∨ q = .endFl := by
  cases q <;> simp [SeqState.requestsFlush]

/-- No state offers a byte and requests a flush in one cycle, so one answer alone counts. -/
theorem SeqState.requestsFlush_of_offersByte {q : SeqState} (h : q.offersByte = true) : q.requestsFlush = false := by
  cases q <;> simp_all [SeqState.offersByte, SeqState.requestsFlush]

/-! The cycle without a command, by the error of the own action. -/

theorem ownCycle_of_ownError_some {s : State} {c : ErrCode} (h : ownError s = some c) :
    ownCycle s = raiseError c s.state s := by
  simp [ownCycle, h]

theorem ownCycle_of_ownError_none {s : State} (h : ownError s = none) : ownCycle s = ownStep s := by
  simp [ownCycle, h]

/-- A failed byte write (R203). -/
theorem ownCycle_of_write_fail {s : State} (hq : s.state.offersByte = true) (h : s.pins.writeAnswer = .fail) :
    ownCycle s = raiseError .txIo s.state s :=
  ownCycle_of_ownError_some ((ownError_eq_some s .txIo).mpr (.inl ⟨hq, h, rfl⟩))

/-- A failed flush (R203). -/
theorem ownCycle_of_flush_fail {s : State} (hq : s.state.requestsFlush = true) (h : s.pins.flushAnswer = .fail) :
    ownCycle s = raiseError .flushIo s.state s :=
  ownCycle_of_ownError_some ((ownError_eq_some s .flushIo).mpr (.inr ⟨hq, h, rfl⟩))

/-- A state that offers a byte runs its own action alone on every answer but a failure. -/
theorem ownCycle_of_write_not_fail {s : State} (hq : s.state.offersByte = true) (h : s.pins.writeAnswer ≠ .fail) :
    ownCycle s = ownStep s :=
  ownCycle_of_ownError_none ((ownError_eq_none s).mpr
    ⟨fun _ => h, fun hf => by simp [SeqState.requestsFlush_of_offersByte hq] at hf⟩)

/-- A state that requests a flush runs its own action alone on every answer but a failure. -/
theorem ownCycle_of_flush_not_fail {s : State} (hq : s.state.requestsFlush = true) (h : s.pins.flushAnswer ≠ .fail) :
    ownCycle s = ownStep s :=
  ownCycle_of_ownError_none ((ownError_eq_none s).mpr
    ⟨fun hb => by simp [SeqState.requestsFlush_of_offersByte hb] at hq, fun _ => h⟩)

/-! The cycle in which the sink does not answer. -/

theorem ownCycle_of_write_wait {s : State} (hq : s.state.offersByte = true) (h : s.pins.writeAnswer = .wait) :
    ownCycle s = s := by
  rw [ownCycle_of_write_not_fail hq (by simp [h])]
  rcases (SeqState.offersByte_eq_true_iff _).mp hq with hs | hs | hs
  · simp [ownStep, hs, stepPre, h]
  · simp [ownStep, hs, stepEmit, h]
  · simp [ownStep, hs, stepPad, h]

theorem ownCycle_of_flush_wait {s : State} (hq : s.state.requestsFlush = true) (h : s.pins.flushAnswer = .wait) :
    ownCycle s = s := by
  rw [ownCycle_of_flush_not_fail hq (by simp [h])]
  rcases (SeqState.requestsFlush_eq_true_iff _).mp hq with hs | hs | hs
  · simp [ownStep, hs, stepPreFl, h]
  · simp [ownStep, hs, stepBlkFl, h]
  · simp [ownStep, hs, stepEndFl, h]

/-! The cycle in which the sink takes the byte (R152, R158, R159). -/

theorem ownCycle_pre_of_write_ok {s : State} (hs : s.state = .pre) (h : s.pins.writeAnswer = .ok) :
    ownCycle s =
      emitEvent (.byte Config.preByte)
        { s with
          txBytes := s.txBytes + 1, preCnt := s.preCnt + 1, state := if s.preCnt = 10 then .preFl else .pre } := by
  rw [ownCycle_of_write_not_fail (by rw [hs]; rfl) (by simp [h])]
  simp [ownStep, hs, stepPre, h]

theorem ownCycle_emit_of_write_ok {s : State} (hs : s.state = .emit) (h : s.pins.writeAnswer = .ok) :
    ownCycle s =
      emitEvent (.byte s.acc)
        { s with
          txBytes := s.txBytes + 1, acc := 0, bitCnt := 0
          byteCnt := if s.byteCnt = 7 then 8 else s.byteCnt + 1
          state := if s.byteCnt = 7 then .pad else s.resume } := by
  rw [ownCycle_of_write_not_fail (by rw [hs]; rfl) (by simp [h])]
  simp [ownStep, hs, stepEmit, h]

theorem ownCycle_pad_of_write_ok {s : State} (hs : s.state = .pad) (h : s.pins.writeAnswer = .ok) :
    ownCycle s =
      emitEvent (.byte Config.padByte) { s with txBytes := s.txBytes + 1, byteCnt := 0, state := .blkFl } := by
  rw [ownCycle_of_write_not_fail (by rw [hs]; rfl) (by simp [h])]
  simp [ownStep, hs, stepPad, h]

/-! The cycle in which the sink has flushed (R153, R160, R162). -/

theorem ownCycle_preFl_of_flush_ok {s : State} (hs : s.state = .preFl) (h : s.pins.flushAnswer = .ok) :
    ownCycle s = emitEvent .flush { s with state := .run } := by
  rw [ownCycle_of_flush_not_fail (by rw [hs]; rfl) (by simp [h])]
  simp [ownStep, hs, stepPreFl, h]

theorem ownCycle_blkFl_of_flush_ok {s : State} (hs : s.state = .blkFl) (h : s.pins.flushAnswer = .ok) :
    ownCycle s =
      emitEvent .flush
        { s with blocks := s.blocks + 1, pauseCnt := s.params.pauseCycles, state := .pause } := by
  rw [ownCycle_of_flush_not_fail (by rw [hs]; rfl) (by simp [h])]
  simp [ownStep, hs, stepBlkFl, h]

theorem ownCycle_endFl_of_flush_ok {s : State} (hs : s.state = .endFl) (h : s.pins.flushAnswer = .ok) :
    ownCycle s = emitEvent .flush { s with done := true, state := .idle } := by
  rw [ownCycle_of_flush_not_fail (by rw [hs]; rfl) (by simp [h])]
  simp [ownStep, hs, stepEndFl, h]

/-! The output pins of the two handshakes, and the statements. -/

theorem outputsOf_txValid {s : State} {p : CycleInput} (hr : p.rst = false) :
    (outputsOf s p).txValid = s.state.offersByte := by
  simp [outputsOf, hr]

theorem outputsOf_flReq {s : State} {p : CycleInput} (hr : p.rst = false) :
    (outputsOf s p).flReq = s.state.requestsFlush := by
  simp [outputsOf, hr]

/-- Settles O27: the pins give the answer of R24, and each answer has its cycle, the accepted byte one per state. -/
theorem byteStatesOfferUntilTheSinkAnswers : Obligations.ByteStatesOfferUntilTheSinkAnswers := by
  intro s hstate hr
  have hoffers : s.state.offersByte = true := (SeqState.offersByte_eq_true_iff _).mpr hstate
  refine ⟨(outputsOf_txValid hr).trans hoffers, fun hs => ?_, fun hs => ?_, fun hs => ?_, fun herr => ?_,
    fun herr hready => ?_, fun herr hready hs => ?_, fun herr hready hs => ?_, fun herr hready hs => ?_⟩
  · simp [outputsOf, State.txData, hs, Config.preByte]
  · simp [outputsOf, State.txData, hs]
  · simp [outputsOf, State.txData, hs, Config.padByte]
  · exact ownCycle_of_write_fail hoffers (CycleInput.writeAnswer_of_txErr herr)
  · exact ownCycle_of_write_wait hoffers (CycleInput.writeAnswer_of_no_answer herr hready)
  · exact ownCycle_pre_of_write_ok hs (CycleInput.writeAnswer_of_txReady herr hready)
  · exact ownCycle_emit_of_write_ok hs (CycleInput.writeAnswer_of_txReady herr hready)
  · exact ownCycle_pad_of_write_ok hs (CycleInput.writeAnswer_of_txReady herr hready)

/-- Settles O28: the pins give the answer of R25, and each answer has its cycle, the flush done one per state. -/
theorem flushStatesWaitForTheSink : Obligations.FlushStatesWaitForTheSink := by
  intro s hstate hr
  have hrequests : s.state.requestsFlush = true := (SeqState.requestsFlush_eq_true_iff _).mpr hstate
  refine ⟨(outputsOf_flReq hr).trans hrequests, fun herr => ?_, fun herr hdone => ?_, fun herr hdone hs => ?_,
    fun herr hdone hs => ?_, fun herr hdone hs => ?_⟩
  · exact ownCycle_of_flush_fail hrequests (CycleInput.flushAnswer_of_flErr herr)
  · exact ownCycle_of_flush_wait hrequests (CycleInput.flushAnswer_of_no_answer herr hdone)
  · exact ownCycle_preFl_of_flush_ok hs (CycleInput.flushAnswer_of_flDone herr hdone)
  · exact ownCycle_blkFl_of_flush_ok hs (CycleInput.flushAnswer_of_flDone herr hdone)
  · exact ownCycle_endFl_of_flush_ok hs (CycleInput.flushAnswer_of_flDone herr hdone)

end Sys2Proof.Machine
end

section
/-! PROOFS. The cycle of a command that acts or stalls (R170), and the commands by their columns of the verdict table
(R171): those that act in IDLE alone, those that feed the input, NOP and CLEAR (R172, R173, R179, R180). -/

namespace Sys2Proof.Machine

/-! The cycle by the verdict. -/

theorem SeqState.phase_eq_busy_iff (q : SeqState) : q.phase = .busy ↔ q ≠ .idle ∧ q ≠ .error := by
  cases q <;> decide

theorem SeqState.phase_ne_busy {q : SeqState} (h : q = .idle ∨ q = .error) : q.phase ≠ .busy := by
  rcases h with rfl | rfl <;> decide

/-- Where a command acts other than NOP, the state offers no byte and requests no flush that could fail. -/
theorem ownError_of_act {i : Instr} {s : State} (h : verdict i.opcode s.state s.cfgSrc = .act) (hn : i.opcode ≠ .nop) :
    ownError s = none := by
  rcases (verdict_eq_act _ _ _).mp h with hnop | ⟨-, hs⟩ | ⟨-, hs, -⟩ | ⟨-, hs | hs⟩
  · exact absurd hnop hn
  all_goals simp [ownError, hs, SeqState.offersByte, SeqState.requestsFlush]

theorem exec_of_verdict_act {i : Instr} {s : State} (h : verdict i.opcode s.state s.cfgSrc = .act)
    (hn : i.opcode ≠ .nop) : exec i s = .next (commandAct i s) := by
  simp [exec_eq_next, commandCycle, ownError_of_act h hn, h, ownStep_of_act i s h hn]

theorem exec_of_verdict_stall {i : Instr} {s : State} (h : verdict i.opcode s.state s.cfgSrc = .stall) :
    exec i s = .next (ownCycle s) := by
  cases ho : ownError s <;> simp [exec_eq_next, commandCycle, ownCycle, h, ho]

/-- A command ignored in ERROR leaves the state as it is, since ERROR has no own action (R164). -/
theorem exec_of_verdict_ignore_of_error {i : Instr} {s : State} (h : verdict i.opcode s.state s.cfgSrc = .ignore)
    (hs : s.state = .error) : exec i s = .next s := by
  rw [exec_of_verdict_ignore h, ownCycle_of_not_busy s (SeqState.phase_ne_busy (.inr hs))]

/-! NOP (R172). -/

theorem exec_nop (s : State) : exec .nop s = .next (ownCycle s) := by
  cases ho : ownError s <;> simp [exec, execNop, commandCycle, ownCycle, verdict, ho]

/-- Settles O16: the verdict of NOP is to act in every state, and its pseudocode is empty. -/
theorem nopChangesNothing : Obligations.NopChangesNothing := by
  refine ⟨decode_append .nop, fun s => ⟨exec_nop s, fun hs => ?_⟩⟩
  rw [exec_nop, ownCycle_of_not_busy s (SeqState.phase_ne_busy hs)]

/-! The commands that act in IDLE alone: SETW, SETH, SETLEN, SETCFG and START. -/

theorem verdict_of_acts_in_idle {op : Opcode} (hop : op ∈ [Opcode.setw, .seth, .setlen, .setcfg, .start])
    (st : SeqState) (stream : Bool) :
    verdict op st stream = if st = .idle then .act else if st = .error then .ignore else .error .cmdState := by
  revert op; cases st <;> decide +revert

/-- Their cycle in the three columns of the verdict table. -/
theorem exec_of_acts_in_idle {i : Instr} (hi : i.opcode ∈ [Opcode.setw, .seth, .setlen, .setcfg, .start]) (s : State) :
    (s.state = .idle → exec i s = .next (commandAct i s)) ∧
      (s.state.phase = .busy → exec i s = .next (abortedBy .cmdState s)) ∧
      (s.state = .error → exec i s = .next s) := by
  have hverdict := verdict_of_acts_in_idle hi
  refine ⟨fun hs => ?_, fun hs => ?_, fun hs => ?_⟩
  · exact exec_of_verdict_act (by simp [hverdict, hs]) fun hn => by simp [hn] at hi
  · obtain ⟨hidle, herror⟩ := (SeqState.phase_eq_busy_iff _).mp hs
    exact exec_of_verdict_error (by simp [hverdict, hidle, herror])
  · exact exec_of_verdict_ignore_of_error (by simp [hverdict, hs]) hs

/-- Settles O17: SETW is a command that acts in IDLE alone, and its pseudocode writes WIDTH. -/
theorem setwSetsTheWidth : Obligations.SetwSetsTheWidth :=
  ⟨decode_append (.setw 0), fun s arg => exec_of_acts_in_idle (i := .setw arg) (by simp [Instr.opcode]) s⟩

/-! The commands that feed the input: SAMPLE and END. -/

theorem verdict_of_feeds_input {op : Opcode} (hop : op ∈ [Opcode.sample, .endInput]) (st : SeqState) (stream : Bool) :
    verdict op st stream =
      if st = .error then .ignore
      else if st = .idle ∨ stream = false then .error .cmdState
      else if st = .run then .act else .stall := by
  revert op; cases st <;> decide +revert

/-- Their cycle: RUN in stream mode, the other busy states in stream mode, IDLE and the mapper-mode frames, ERROR. -/
theorem exec_of_feeds_input {i : Instr} (hi : i.opcode ∈ [Opcode.sample, .endInput]) (s : State) :
    (s.state = .run → s.cfgSrc = true → exec i s = .next (commandAct i s)) ∧
      (s.state.phase = .busy → s.cfgSrc = true → s.state ≠ .run →
        exec i s = .next (ownCycle s) ∧ cmdReady i.opcode s.state s.cfgSrc = false) ∧
      ((s.state = .idle ∨ (s.state.phase = .busy ∧ s.cfgSrc = false)) → exec i s = .next (abortedBy .cmdState s)) ∧
      (s.state = .error → exec i s = .next s) := by
  have hverdict := verdict_of_feeds_input hi
  refine ⟨fun hs hsrc => ?_, fun hs hsrc hrun => ?_, fun hs => ?_, fun hs => ?_⟩
  · exact exec_of_verdict_act (by simp [hverdict, hs, hsrc]) fun hn => by simp [hn] at hi
  · obtain ⟨hidle, herror⟩ := (SeqState.phase_eq_busy_iff _).mp hs
    have hstall : verdict i.opcode s.state s.cfgSrc = .stall := by simp [hverdict, hidle, herror, hsrc, hrun]
    exact ⟨exec_of_verdict_stall hstall, by simp [cmdReady, hstall]⟩
  · refine exec_of_verdict_error ?_
    rcases hs with hs | ⟨hbusy, hsrc⟩
    · simp [hverdict, hs]
    · simp [hverdict, hsrc, ((SeqState.phase_eq_busy_iff _).mp hbusy).2]
  · exact exec_of_verdict_ignore_of_error (by simp [hverdict, hs]) hs

/-- The end of input with a tail of bits under PAD (R157): the tail byte is offered next. -/
theorem endOfInput_of_tail {s : State} (htail : s.cfgTail = true) (hbits : s.bitCnt ≠ 0) :
    endOfInput s = { s with eoi := true, tailBits := s.bitCnt &&& 7, tailEmit := true, state := .emit } := by
  have hnot_dropped : ¬(s.cfgTail = false ∨ s.bitCnt = 0) := by simpa [htail] using hbits
  exact ((endOfInput_cases s).resolve_right fun h => hnot_dropped h.1).2.2

/-- The end of input under DROP or without bits left (R157): the trailing flush is next. -/
theorem endOfInput_of_no_tail {s : State} (h : s.cfgTail = false ∨ s.bitCnt = 0) :
    endOfInput s =
      { s with
        eoi := true, tailBits := s.bitCnt &&& 7, tailEmit := false, acc := 0, bitCnt := 0, state := .endFl } := by
  have hno_tail : ¬(s.cfgTail = true ∧ s.bitCnt ≠ 0) := by rcases h with h | h <;> simp [h]
  exact ((endOfInput_cases s).resolve_left fun h => hno_tail ⟨h.1, h.2.1⟩).2

/-- Settles O23: END is a command that feeds the input, and where it acts the two cases are those of the end of
input. -/
theorem endClosesTheInputInRun : Obligations.EndClosesTheInputInRun := by
  refine ⟨decode_append .endInput, fun s => ?_⟩
  obtain ⟨hact, hstall, herror, hignore⟩ := exec_of_feeds_input (i := .endInput) (by decide) s
  refine ⟨fun hs hsrc htail hbits => ?_, fun hs hsrc htail => ?_, hstall, herror, hignore⟩
  · rw [hact hs hsrc, commandAct, endOfInput_of_tail htail hbits]
  · rw [hact hs hsrc, commandAct, endOfInput_of_no_tail htail]

/-! CLEAR (R180). -/

theorem verdict_clear (st : SeqState) (stream : Bool) :
    verdict .clear st stream = if st.phase = .busy then .ignore else .act := by
  cases st <;> rfl

/-- Settles O24: CLEAR acts in IDLE and ERROR on the state itself, and when busy it is ignored. -/
theorem clearLeavesErrorAndNeverCancels : Obligations.ClearLeavesErrorAndNeverCancels := by
  refine ⟨decode_append .clear, fun s => ⟨fun hs => ?_, fun hs => ?_⟩⟩
  · exact exec_of_verdict_act (i := .clear) ((verdict_clear _ _).trans (if_neg (SeqState.phase_ne_busy hs))) nofun
  · exact exec_of_verdict_ignore ((verdict_clear _ _).trans (if_pos hs))

end Sys2Proof.Machine
end

section
/-! PROOFS. The failures of the sink (R203) against every command (R208): an own error wins, and the command has no
effect. -/

namespace Sys2Proof.Machine

/-- In the cycle of an own error a command has no effect, whatever its verdict (R208). -/
theorem exec_of_ownError_some {s : State} {c : ErrCode} (i : Instr) (h : ownError s = some c) :
    exec i s = .next (raiseError c s.state s) := by
  simp [exec_eq_next, commandCycle, h]

/-- Settles O12: a failed byte and a failed flush are own errors, which the cycle without a command and the cycle of
every command record alike. -/
theorem sinkFailureWinsOverEveryCommand : Obligations.SinkFailureWinsOverEveryCommand := by
  refine fun i s => ⟨fun hstate herr => ?_, fun hstate herr => ?_⟩
  · have hfail : ownError s = some .txIo := (ownError_eq_some s .txIo).mpr
      (.inl ⟨(SeqState.offersByte_eq_true_iff _).mpr hstate, CycleInput.writeAnswer_of_txErr herr, rfl⟩)
    exact ⟨exec_of_ownError_some i hfail, ownCycle_of_ownError_some hfail⟩
  · have hfail : ownError s = some .flushIo := (ownError_eq_some s .flushIo).mpr
      (.inr ⟨(SeqState.requestsFlush_eq_true_iff _).mpr hstate, CycleInput.flushAnswer_of_flErr herr, rfl⟩)
    exact ⟨exec_of_ownError_some i hfail, ownCycle_of_ownError_some hfail⟩

end Sys2Proof.Machine
end

section
/-! PROOFS. Encoding (R80 to R90): a command's word decodes to it, the ARG bits a command does not read, and the words
the assembler writes. -/

namespace Sys2Proof

open Machine

/-- A command is what its own ARG field makes of it (R82). -/
theorem Instr.withArg_argBits (i : Instr) : i.withArg i.argBits = i := by
  cases i <;> simp [Instr.withArg, Instr.argBits]

theorem decode_encode (i : Instr) : decode (encode i) = i :=
  (decode_append i i.argBits).trans i.withArg_argBits

/-- Settles O5: the word is OP and ARG side by side, decoding reads the same ARG back. -/
theorem decodeOfEncodeIsTheCommand : Obligations.DecodeOfEncodeIsTheCommand := decode_encode

/-- Settles O9: twelve words, evaluated. -/
theorem specWordsDecode : Obligations.SpecWordsDecode := by
  unfold Obligations.SpecWordsDecode
  decide

/-! The bits of ARG an opcode reads (R82, R84). -/

/-- How many of the low bits of ARG an opcode reads at a build (R82). -/
def argWidth (p : Params) : Opcode → Nat
  | .setw => p.dimBits
  | .seth => p.dimBits
  | .setlen => p.addrBits
  | .setcfg => 3
  | .sample => 8
  | _ => 0

/-- The ARG bits of a mask that keeps the low `n` bits. -/
def lowMask (n : Nat) : Arg := BitVec.ofNat 28 (2 ^ n - 1)

theorem and_lowMask_toNat {n : Nat} (a : Arg) (hn : n ≤ 28) : (a &&& lowMask n).toNat = a.toNat % 2 ^ n := by
  have hpow : 2 ^ n ≤ 2 ^ 28 := Nat.pow_le_pow_right (by decide) hn
  have hpos : 0 < 2 ^ n := by positivity
  rw [BitVec.toNat_and, lowMask, BitVec.toNat_ofNat, Nat.mod_eq_of_lt (by omega), Nat.and_two_pow_sub_one_eq_mod]

theorem and_lowMask_of_lt {n : Nat} {a : Arg} (hn : n ≤ 28) (ha : a.toNat < 2 ^ n) : a &&& lowMask n = a :=
  BitVec.eq_of_toNat_eq ((and_lowMask_toNat a hn).trans (Nat.mod_eq_of_lt ha))

/-- A mask over OP and the low ARG bits, as one word or as its two fields. -/
theorem opMask_or_lowBits {n : Nat} (hn : n ≤ 28) :
    (0xF0000000 ||| BitVec.ofNat 32 (2 ^ n - 1) : Word) = 0xF#4 ++ lowMask n := by
  have hpow : 2 ^ n ≤ 2 ^ 28 := Nat.pow_le_pow_right (by decide) hn
  have hlow : BitVec.ofNat 32 (2 ^ n - 1) = 0#4 ++ lowMask n :=
    BitVec.eq_of_toNat_eq (by
      rw [lowMask, BitVec.toNat_append, BitVec.toNat_ofNat, BitVec.toNat_ofNat, Nat.mod_eq_of_lt (by omega)]
      simp [Nat.mod_eq_of_lt (show 2 ^ n - 1 < 268435456 by omega)])
  have hop : (0xF0000000 : Word) = 0xF#4 ++ 0#28 := by decide
  rw [hlow, hop, BitVec.or_append, BitVec.or_zero, BitVec.zero_or]

theorem argWidth_le {p : Params} (hp : p.Legal) (op : Opcode) : argWidth p op ≤ 28 := by
  obtain ⟨-, hdim, -, haddr, -⟩ := hp
  cases op <;> simp only [argWidth] <;> omega

/-- The mask of R84 keeps OP and the low ARG bits the opcode reads. -/
theorem readMask_eq {p : Params} (hp : p.Legal) (op : Opcode) : readMask p op = 0xF#4 ++ lowMask (argWidth p op) := by
  obtain ⟨-, hdim, -, haddr, -⟩ := hp
  cases op
  case setw => exact opMask_or_lowBits (by omega)
  case seth => exact opMask_or_lowBits (by omega)
  case setlen => exact opMask_or_lowBits (by omega)
  all_goals (simp only [readMask, argWidth]; decide)

theorem opField_and (w : Word) (op : BitVec 4) (arg : Arg) : opField (w &&& (op ++ arg)) = opField w &&& op := by
  rw [opField, BitVec.extractLsb'_and]
  exact congrArg _ (opField_append op arg)

theorem argField_and (w : Word) (op : BitVec 4) (arg : Arg) : argField (w &&& (op ++ arg)) = argField w &&& arg := by
  rw [argField, BitVec.extractLsb'_and]
  exact congrArg _ (argField_append op arg)

/-- A masked word keeps its opcode and reads its operand from the masked ARG. -/
theorem decode_and_readMask {p : Params} (hp : p.Legal) (w : Word) :
    decode (w &&& readMask p (decode w).opcode) =
      (decode w).withArg (argField w &&& lowMask (argWidth p (decode w).opcode)) := by
  rw [readMask_eq hp, ← argField_and w 0xF#4]
  refine decode_of_opField ?_
  rw [opField_and, decode_opBits]
  exact BitVec.and_allOnes

theorem decode_eq_withArg (w : Word) : decode w = (decode w).withArg (argField w) :=
  decode_of_opField (decode_opBits w).symm

/-! A register takes the low bits of the operand, so the others do not count. -/

theorem lowBits_mod (w n v : Nat) : lowBits w n (v % 2 ^ n) = lowBits w n v := by
  simp [lowBits]

/-- A command's cycle depends on its pseudocode only as it runs after the own action. -/
theorem commandCycle_congr {op : Opcode} {f g : State → State} {s : State} (h : f (ownStep s) = g (ownStep s)) :
    commandCycle op f s = commandCycle op g s := by
  simp [commandCycle, h]

theorem setWidth_and_lowMask {n : Nat} (a : Arg) (hn : n ≤ 28) : (a &&& lowMask n).setWidth n = a.setWidth n :=
  BitVec.eq_of_toNat_eq (by
    rw [BitVec.toNat_setWidth, and_lowMask_toNat a hn, Nat.mod_mod, BitVec.toNat_setWidth])

/-- A command's pseudocode reads the low `argWidth` bits of ARG alone. -/
theorem commandAct_withArg_and_lowMask {t : State} (hp : t.params.Legal) (i : Instr) (a : Arg) :
    commandAct (i.withArg (a &&& lowMask (argWidth t.params i.opcode))) t = commandAct (i.withArg a) t := by
  have hle := argWidth_le hp i.opcode
  cases i
  case setw =>
    simp only [commandAct, Instr.withArg, dimOperand, and_lowMask_toNat a hle]
    simp only [Instr.opcode, argWidth, lowBits_mod]
  case seth =>
    simp only [commandAct, Instr.withArg, dimOperand, and_lowMask_toNat a hle]
    simp only [Instr.opcode, argWidth, lowBits_mod]
  case setlen =>
    simp only [commandAct, Instr.withArg, lenOperand, and_lowMask_toNat a hle]
    simp only [Instr.opcode, argWidth, lowBits_mod]
  case setcfg =>
    simp only [commandAct, Instr.withArg]
    rw [show argWidth t.params (Instr.setcfg _).opcode = 3 from rfl, setWidth_and_lowMask a (by decide)]
  case sample =>
    simp only [commandAct, Instr.withArg]
    rw [show argWidth t.params (Instr.sample _).opcode = 8 from rfl, setWidth_and_lowMask a (by decide)]
  all_goals rfl

/-- Settles O7: the masked word is the same command with the low ARG bits, and its pseudocode reads no others. -/
theorem ignoredArgBitsHaveNoEffect : Obligations.IgnoredArgBitsHaveNoEffect := by
  intro s w hp
  have hparams : (ownStep s).params = s.params := (ownStep_frame s).1
  rw [decode_and_readMask hp, exec_eq_next, exec_eq_next, Instr.withArg_opcode]
  congr 1
  refine commandCycle_congr ?_
  conv_lhs => rw [decode_eq_withArg w]
  rw [← hparams] at hp ⊢
  exact (commandAct_withArg_and_lowMask hp (decode w) (argField w)).symm

/-! The words of the assembler (R88 to R90). -/

/-- A word that encodes a command the assembler's check lets through. -/
def IsCommandWord (p : Params) (w : Word) : Prop := ∃ i : Instr, i.wellFormed p = true ∧ w = encode i

/-- Every word of an expansion, if there is one, is the word of a command that passes the check. -/
def CommandWords (p : Params) (o : Option (List Word)) : Prop := ∀ ws, o = some ws → ∀ w ∈ ws, IsCommandWord p w

section
variable {p : Params}

theorem CommandWords.encode {i : Instr} (h : i.wellFormed p = true) : CommandWords p (some [encode i]) := by
  rintro ws ⟨rfl⟩ w hw
  exact ⟨i, h, List.mem_singleton.mp hw⟩

theorem CommandWords.fitWord {bound n : Nat} {i : Instr} (h : n < bound → i.wellFormed p = true) :
    CommandWords p (fitWord bound n i) := by
  unfold Machine.fitWord
  split
  · next hn => exact CommandWords.encode (h hn)
  · exact nofun

theorem CommandWords.andThen {a b : Option (List Word)} (ha : CommandWords p a) (hb : CommandWords p b) :
    CommandWords p (andThen a b) := by
  cases a with
  | none => exact nofun
  | some x =>
    cases b with
    | none => exact nofun
    | some y =>
      rintro ws ⟨rfl⟩ w hw
      exact (List.mem_append.mp hw).elim (ha x rfl w) (hb y rfl w)

theorem sampleWords_cons (v : Nat) (vs : List Nat) :
    sampleWords (v :: vs) = andThen (fitWord 256 v (.sample (BitVec.ofNat 8 v))) (sampleWords vs) := by
  unfold andThen
  rw [sampleWords]

theorem CommandWords.sampleWords (vs : List Nat) : CommandWords p (sampleWords vs) := by
  induction vs with
  | nil => rintro ws ⟨rfl⟩ w hw; simp at hw
  | cons v vs ih =>
    rw [sampleWords_cons]
    exact .andThen (.fitWord fun _ => rfl) ih

theorem CommandWords.setwWord (n : Nat) : CommandWords p (dimWord p .setw n) :=
  .fitWord fun h => decide_eq_true (lt_of_le_of_lt (Nat.mod_le _ _) h)

theorem CommandWords.sethWord (n : Nat) : CommandWords p (dimWord p .seth n) :=
  .fitWord fun h => decide_eq_true (lt_of_le_of_lt (Nat.mod_le _ _) h)

theorem CommandWords.lenWord (n : Nat) : CommandWords p (lenWord p n) :=
  .fitWord fun h => decide_eq_true (lt_of_le_of_lt (Nat.mod_le _ _) h)

/-- Every line but a raw word assembles to words of commands that pass the check (R88 to R90). -/
theorem CommandWords.assembleOp {op : AsmOp} (hop : ∀ w, op ≠ .word w) : CommandWords p (assembleOp p op) := by
  cases op with
  | word w => exact absurd rfl (hop w)
  | nop => exact .encode rfl
  | start => exact .encode rfl
  | endInput => exact .encode rfl
  | clear => exact .encode rfl
  | setw n => exact .setwWord n
  | seth n => exact .sethWord n
  | setlen n => exact .lenWord n
  | setcfg n => exact .fitWord fun _ => rfl
  | sample n => exact .sampleWords [n]
  | config w h => exact .andThen (.setwWord w) (.andThen (.sethWord h) (.lenWord (w * h)))
  | samples v n => exact .sampleWords _
  | pixels vs => exact .sampleWords vs
  | streamFrame vs => exact .andThen (.encode rfl) (.andThen (.sampleWords vs) (.encode rfl))

end

/-- A command that passes the check has no ARG bit set that its opcode does not read. -/
theorem Instr.argBits_lt_of_wellFormed {p : Params} {i : Instr} (h : i.wellFormed p = true) :
    i.argBits.toNat < 2 ^ argWidth p i.opcode := by
  cases i with
  | setw arg => exact of_decide_eq_true h
  | seth arg => exact of_decide_eq_true h
  | setlen arg => exact of_decide_eq_true h
  | setcfg cfg => simpa [Instr.argBits, Instr.opcode, argWidth] using lt_of_le_of_lt (Nat.mod_le _ _) cfg.isLt
  | sample value => simpa [Instr.argBits, Instr.opcode, argWidth] using lt_of_le_of_lt (Nat.mod_le _ _) value.isLt
  | _ => simp [Instr.argBits, Instr.opcode, argWidth]

theorem encode_and_readMask {p : Params} (hp : p.Legal) {i : Instr} (h : i.wellFormed p = true) :
    encode i &&& readMask p i.opcode = encode i := by
  rw [readMask_eq hp, encode, BitVec.and_append,
    and_lowMask_of_lt (argWidth_le hp _) (Instr.argBits_lt_of_wellFormed h)]
  exact congrArg (· ++ i.argBits) BitVec.and_allOnes

/-- Settles O8: a word of an expansion encodes a command that passes the check, so decoding gives that command back,
and the command's own bits lie under the mask. -/
theorem assembledWordsAreWellFormed : Obligations.AssembledWordsAreWellFormed := by
  intro p op ws hp hop hws w hw
  obtain ⟨i, hi, rfl⟩ := CommandWords.assembleOp hop ws hws w hw
  rw [decode_encode]
  exact ⟨hi, rfl, encode_and_readMask hp hi⟩

end Sys2Proof
end

section
/-! PROOFS. What a step can do (R150, R170, R208, R230), said once for every statement about all steps. -/

namespace Sys2Proof.Machine

@[simp] theorem afterWrites_pins (s : State) : s.afterWrites.pins = s.pins := hostWrites_pins s _

/-- The host's writes of a cycle change the memory and the list of unstable addresses alone. -/
theorem exists_afterWrites_eq (s : State) : ∃ m u, s.afterWrites = { s with mem := m, unstable := u } := by
  refine ⟨s.afterWrites.mem, s.afterWrites.unstable, ?_⟩
  unfold State.afterWrites
  generalize s.pins.memWrites = cs
  rw [State.mk.injEq]
  simp

/-- Everything the registers can do in one cycle: reset; the error of the own action; the own action, with no command,
with NOP, or with a word that is ignored or stalls; a command that acts; a command's error over the own action. -/
inductive CycleEffect (s : State) : State → Prop
  | reset (hr : s.pins.rst = true) : CycleEffect s (resetRegisters s)
  | ownError (c : ErrCode) (hr : s.pins.rst = false) (ho : ownError s = some c) :
      CycleEffect s (raiseError c s.state s)
  | own (hr : s.pins.rst = false) (ho : Machine.ownError s = none) : CycleEffect s (ownStep s)
  | act (i : Instr) (hr : s.pins.rst = false) (hv : s.pins.cmdValid = true) (hi : decode s.pins.cmdWord = i)
      (hact : verdict i.opcode s.state s.cfgSrc = .act) (hn : i.opcode ≠ .nop) : CycleEffect s (commandAct i s)
  | commandError (i : Instr) (c : ErrCode) (hr : s.pins.rst = false) (hv : s.pins.cmdValid = true)
      (hi : decode s.pins.cmdWord = i) (ho : Machine.ownError s = none)
      (herr : verdict i.opcode s.state s.cfgSrc = .error c) : CycleEffect s (raiseError c s.state (ownStep s))

theorem CycleEffect.ofOwnCycle {s : State} (hr : s.pins.rst = false) : CycleEffect s (ownCycle s) := by
  cases ho : Machine.ownError s with
  | some c => rw [ownCycle_of_ownError_some ho]; exact .ownError c hr ho
  | none => rw [ownCycle_of_ownError_none ho]; exact .own hr ho

theorem Instr.eq_nop_of_opcode {i : Instr} (h : i.opcode = .nop) : i = .nop := by
  cases i with
  | nop => rfl
  | _ => simp [Instr.opcode] at h

theorem CycleEffect.ofCommandCycle {s : State} (i : Instr) (hr : s.pins.rst = false) (hv : s.pins.cmdValid = true)
    (hi : decode s.pins.cmdWord = i) : CycleEffect s (commandCycle i.opcode (commandAct i) s) := by
  rcases commandCycle_cases i.opcode (commandAct i) s with
    ⟨c, ho, he⟩ | ⟨ho, ⟨hact, he⟩ | ⟨c, herr, he⟩ | ⟨-, he⟩⟩ <;> rw [he]
  · exact .ownError c hr ho
  · by_cases hn : i.opcode = .nop
    · obtain rfl := Instr.eq_nop_of_opcode hn
      exact .own hr ho
    · rw [ownStep_of_act i s hact hn]
      exact .act i hr hv hi hact hn
  · exact .commandError i c hr hv hi ho herr
  · exact .own hr ho

/-- A step is one effect on the state after the host's memory writes, and then the next cycle's pins come up. -/
theorem exists_effect_of_step {s t : State} (h : step s = .next t) :
    ∃ r, CycleEffect s.afterWrites r ∧ t = endCycle r := by
  obtain ⟨-, -, rfl⟩ := (step_eq_next s t).mp h
  refine ⟨cycleResult s, ?_, rfl⟩
  show CycleEffect s.afterWrites (cycleResult s)
  unfold cycleResult
  change CycleEffect s.afterWrites (if s.pins.rst then resetRegisters s.afterWrites else if s.pins.cmdValid then
    commandCycle _ (commandAct (decode s.pins.cmdWord)) s.afterWrites else ownCycle s.afterWrites)
  split
  · next hr => exact .reset (by rwa [afterWrites_pins])
  · next hr =>
    have hr' : s.afterWrites.pins.rst = false := by rw [afterWrites_pins]; exact Bool.eq_false_iff.mpr hr
    split
    · next hv => exact .ofCommandCycle _ hr' (by rwa [afterWrites_pins]) (by rw [afterWrites_pins])
    · exact .ofOwnCycle hr'

/-- A property that the host's writes, every effect of a cycle and the coming of the next pins keep is kept by every
step. -/
theorem property_of_step {P : State → Prop} {s t : State} (hs : P s) (hwrites : P s → P s.afterWrites)
    (heffect : ∀ {u r}, P u → CycleEffect u r → P r) (hend : ∀ {u}, P u → P (endCycle u)) (h : step s = .next t) :
    P t := by
  obtain ⟨r, hr, rfl⟩ := exists_effect_of_step h
  exact hend (heffect (hwrites hs) hr)

/-- The commands that act in a cycle of their own, with the state they act in (R171). -/
theorem commandAct_cases {P : State → Prop} {i : Instr} {s : State}
    (hact : verdict i.opcode s.state s.cfgSrc = .act) (hn : i.opcode ≠ .nop)
    (hwidth : ∀ a, s.state = .idle → P { s with width := dimOperand s.params a })
    (hheight : ∀ a, s.state = .idle → P { s with height := dimOperand s.params a })
    (hlen : ∀ a, s.state = .idle → P { s with len := lenOperand s.params a })
    (hcfg : ∀ c, s.state = .idle → P { s with cfg := c })
    (hstart : i = .start → s.state = .idle → P (startFrame s))
    (hsample : ∀ b, s.state = .run → s.cfgSrc = true → P (acceptSample b s))
    (hend : s.state = .run → s.cfgSrc = true → P (endOfInput s))
    (hclear : s.state = .idle ∨ s.state = .error → P (clearRegisters s)) : P (commandAct i s) := by
  rw [verdict_eq_act] at hact
  cases i with
  | nop => exact absurd rfl hn
  | setw a => exact hwidth a (by simpa [Instr.opcode] using hact)
  | seth a => exact hheight a (by simpa [Instr.opcode] using hact)
  | setlen a => exact hlen a (by simpa [Instr.opcode] using hact)
  | setcfg c => exact hcfg c (by simpa [Instr.opcode] using hact)
  | start => exact hstart rfl (by simpa [Instr.opcode] using hact)
  | sample b =>
    have hrun : s.state = .run ∧ s.cfgSrc = true := by simpa [Instr.opcode] using hact
    exact hsample b hrun.1 hrun.2
  | endInput =>
    have hrun : s.state = .run ∧ s.cfgSrc = true := by simpa [Instr.opcode] using hact
    exact hend hrun.1 hrun.2
  | clear => exact hclear (by simpa [Instr.opcode] using hact)
  | _ => simp [Instr.opcode] at hact

/-- The own action of a state, case by case (R151 to R164): it leaves the state as it is, or it does what the state's
rule says where the sink, the index or the count lets it. -/
theorem ownStep_cases {P : State → Prop} {s : State} (hstay : P s)
    (hpre : s.state = .pre → s.pins.writeAnswer = .ok → P (emitEvent (.byte Config.preByte)
      { s with txBytes := s.txBytes + 1, preCnt := s.preCnt + 1, state := if s.preCnt = 10 then .preFl else .pre }))
    (hpreFl : s.state = .preFl → s.pins.flushAnswer = .ok → P (emitEvent .flush { s with state := .run }))
    (hread : s.state = .run → s.cfgSrc = false → s.indexInBounds = true → P (mapperStep s))
    (hend : s.state = .run → s.cfgSrc = false → s.indexInBounds = false → P (endOfInput s))
    (hfetch : s.state = .fetch → P (acceptSample s.memRdata { s with draws := s.drawsAfterRead }))
    (hemit : s.state = .emit → s.pins.writeAnswer = .ok → P (emitEvent (.byte s.acc)
      { s with
        txBytes := s.txBytes + 1, acc := 0, bitCnt := 0, byteCnt := if s.byteCnt = 7 then 8 else s.byteCnt + 1
        state := if s.byteCnt = 7 then .pad else s.resume }))
    (hpad : s.state = .pad → s.pins.writeAnswer = .ok → P (emitEvent (.byte Config.padByte)
      { s with txBytes := s.txBytes + 1, byteCnt := 0, state := .blkFl }))
    (hblkFl : s.state = .blkFl → s.pins.flushAnswer = .ok → P (emitEvent .flush
      { s with blocks := s.blocks + 1, pauseCnt := s.params.pauseCycles, state := .pause }))
    (hcount : s.state = .pause → s.pauseCnt ≠ 1 → P { s with pauseCnt := s.pauseCnt - 1 })
    (hpause : s.state = .pause → s.pauseCnt = 1 → P (emitEvent .pause
      { s with pauseCnt := s.pauseCnt - 1, state := s.resume }))
    (hendFl : s.state = .endFl → s.pins.flushAnswer = .ok → P (emitEvent .flush { s with done := true, state := .idle })) :
    P (ownStep s) := by
  cases hs : s.state <;> simp only [ownStep, hs]
  case idle => exact hstay
  case error => exact hstay
  case pre => unfold stepPre; split <;> [exact hpre hs ‹_›; exact hstay; exact hstay]
  case preFl => unfold stepPreFl; split <;> [exact hpreFl hs ‹_›; exact hstay; exact hstay]
  case run =>
    unfold stepRun
    split
    · exact hstay
    · next hsrc =>
      split
      · next hb => exact hread hs (Bool.eq_false_iff.mpr hsrc) hb
      · next hb => exact hend hs (Bool.eq_false_iff.mpr hsrc) (Bool.eq_false_iff.mpr hb)
  case fetch => exact hfetch hs
  case emit => unfold stepEmit; split <;> [exact hemit hs ‹_›; exact hstay; exact hstay]
  case pad => unfold stepPad; split <;> [exact hpad hs ‹_›; exact hstay; exact hstay]
  case blkFl => unfold stepBlkFl; split <;> [exact hblkFl hs ‹_›; exact hstay; exact hstay]
  case pause => unfold stepPause; split <;> [exact hpause hs ‹_›; exact hcount hs ‹_›]
  case endFl => unfold stepEndFl; split <;> [exact hendFl hs ‹_›; exact hstay; exact hstay]

theorem resume_eq (s : State) : s.resume = .run ∨ s.resume = .endFl := by
  unfold State.resume
  cases s.eoi <;> simp

/-- A running frame ends only in END_FL, when the sink completes the trailing flush (R144, R162): the own action of every
other busy state leads to a busy state and leaves DONE. -/
theorem ownStep_busy_or_completes {s : State} (hbusy : s.state.phase = .busy) :
    (ownStep s).state.phase = .busy ∧ (ownStep s).done = s.done ∨
      s.state = .endFl ∧ s.pins.flushAnswer = .ok ∧ ownStep s = emitEvent .flush { s with done := true, state := .idle } := by
  have hresume : s.resume.phase = .busy := by rcases resume_eq s with hq | hq <;> rw [hq] <;> rfl
  refine ownStep_cases (P := fun t => t.state.phase = .busy ∧ t.done = s.done ∨
    s.state = .endFl ∧ s.pins.flushAnswer = .ok ∧ t = emitEvent .flush { s with done := true, state := .idle })
    (.inl ⟨hbusy, rfl⟩) (fun _ _ => .inl ⟨?_, rfl⟩) (fun _ _ => .inl ⟨rfl, rfl⟩) (fun _ _ _ => .inl ⟨rfl, rfl⟩)
    (fun _ _ _ => .inl ?_) (fun _ => .inl ⟨?_, rfl⟩) (fun _ _ => .inl ⟨?_, rfl⟩) (fun _ _ => .inl ⟨rfl, rfl⟩)
    (fun _ _ => .inl ⟨rfl, rfl⟩) (fun _ _ => .inl ⟨hbusy, rfl⟩) (fun _ _ => .inl ⟨hresume, rfl⟩)
    (fun hs ha => .inr ⟨hs, ha, rfl⟩)
  · rw [emitEvent_state]
    split <;> rfl
  · rcases endOfInput_cases s with ⟨-, -, heq⟩ | ⟨-, heq⟩ <;> rw [heq] <;> exact ⟨rfl, rfl⟩
  · rw [acceptSample_state]
    split <;> rfl
  · rw [emitEvent_state]
    split
    · rfl
    · exact hresume

end Sys2Proof.Machine
end

section
/-! PROOFS. The register invariants (R48), read off state by state, and kept by every step. -/

namespace Sys2Proof.Machine

/-- No error is recorded (R37). -/
abbrev NoErrorInv (s : State) : Prop := s.err = .noError ∧ s.errState = .idle

/-- The accumulator holds nothing. -/
abbrev NoBits (s : State) : Prop := s.acc = 0 ∧ s.bitCnt = 0

/-- The bounds of the counters in every state (R48 items 1 to 5). -/
abbrev BoundInv (s : State) : Prop :=
  s.acc.toNat < 2 ^ s.bitCnt.toNat ∧ s.bitCnt ≤ 8 ∧ s.byteCnt ≤ 8 ∧ s.preCnt ≤ 11 ∧ s.tailBits ≤ 7

/-- A running frame past its preamble, with no pause to count. -/
abbrev InFrameInv (s : State) : Prop := s.preCnt = 11 ∧ s.pauseCnt = 0

/-- What the register invariants say in one state of the sequencer: the row of that state. -/
def RegRow (s : State) : SeqState → Prop
  | .idle => s.bitCnt ≤ 7 ∧ s.byteCnt ≤ 7 ∧ s.pauseCnt = 0 ∧ NoErrorInv s
  | .pre => NoBits s ∧ s.byteCnt = 0 ∧ s.preCnt ≤ 10 ∧ s.pauseCnt = 0 ∧ s.eoi = false ∧ s.done = false ∧ NoErrorInv s
  | .preFl => NoBits s ∧ s.byteCnt = 0 ∧ InFrameInv s ∧ s.eoi = false ∧ s.done = false ∧ NoErrorInv s
  | .run => s.bitCnt ≤ 7 ∧ s.byteCnt ≤ 7 ∧ InFrameInv s ∧ s.eoi = false ∧ s.done = false ∧ NoErrorInv s
  | .fetch =>
    s.bitCnt ≤ 7 ∧ s.byteCnt ≤ 7 ∧ InFrameInv s ∧ s.eoi = false ∧ s.cfgSrc = false ∧ s.done = false ∧ NoErrorInv s
  | .emit =>
    1 ≤ s.bitCnt ∧ (s.bitCnt = 8 ↔ s.eoi = false) ∧ s.byteCnt ≤ 7 ∧ InFrameInv s ∧ s.done = false ∧ NoErrorInv s
  | .pad => NoBits s ∧ s.byteCnt = 8 ∧ InFrameInv s ∧ s.done = false ∧ NoErrorInv s
  | .blkFl => NoBits s ∧ s.byteCnt = 0 ∧ InFrameInv s ∧ s.done = false ∧ NoErrorInv s
  | .pause => NoBits s ∧ s.byteCnt = 0 ∧ s.preCnt = 11 ∧ s.pauseCnt ≠ 0 ∧ s.done = false ∧ NoErrorInv s
  | .endFl => NoBits s ∧ s.byteCnt ≤ 7 ∧ InFrameInv s ∧ s.eoi = true ∧ s.done = false ∧ NoErrorInv s
  | .error => s.err ≠ .noError ∧ s.done = false

/-- The invariants of counters, datapath and flags are the bounds and the state's row. -/
theorem boundInv_and_regRow_iff (s : State) :
    CountInv s ∧ RestInv s ∧ FlagInv s ↔ BoundInv s ∧ RegRow s s.state := by
  have hempty : ∀ n : BitVec 4, n = 0#4 → n ≤ 7#4 := by decide
  have hbit := hempty s.bitCnt
  have hbyte := hempty s.byteCnt
  cases hs : s.state <;>
    simp [CountInv, RestInv, FlagInv, BoundInv, RegRow, NoBits, InFrameInv, NoErrorInv, State.busy, SeqState.phase, hs] <;>
    tauto

theorem regInv_iff (s : State) :
    RegInv s ↔ WidthInv s ∧ BoundInv s ∧ RegRow s s.state ∧ CursorInv s ∧ CounterInv s := by
  have hiff := boundInv_and_regRow_iff s
  constructor
  · rintro ⟨hwidth, hcount, hrest, hflag, hcursor, hcounter⟩
    obtain ⟨hbound, hrow⟩ := hiff.mp ⟨hcount, hrest, hflag⟩
    exact ⟨hwidth, hbound, hrow, hcursor, hcounter⟩
  · rintro ⟨hwidth, hbound, hrow, hcursor, hcounter⟩
    obtain ⟨hcount, hrest, hflag⟩ := hiff.mpr ⟨hbound, hrow⟩
    exact ⟨hwidth, hcount, hrest, hflag, hcursor, hcounter⟩

/-- The row of the state the machine is in. -/
theorem RegInv.row {s : State} {q : SeqState} (h : RegInv s) (hs : s.state = q) : RegRow s q :=
  have ⟨_, _, hrow, _⟩ := (regInv_iff s).mp h
  hs ▸ hrow

theorem RegInv.bounds {s : State} (h : RegInv s) : BoundInv s :=
  have ⟨_, hbound, _⟩ := (regInv_iff s).mp h
  hbound

theorem RegInv.cursor {s : State} (h : RegInv s) : CursorInv s :=
  have ⟨_, _, _, hcursor, _⟩ := (regInv_iff s).mp h
  hcursor

theorem RegInv.counters {s : State} (h : RegInv s) : CounterInv s :=
  have ⟨_, _, _, _, hcounter⟩ := (regInv_iff s).mp h
  hcounter

/-- In a running mapper-mode frame the length precondition holds (R101). -/
theorem RegInv.preOk {s : State} (h : RegInv s) (hm : s.mapperFrame = true) : s.preOk = true :=
  have ⟨hrun, _⟩ := h.cursor
  (hrun hm).1

/-- The registers of the configuration and of the cursor are the same in two states. -/
abbrev SameMapper (s t : State) : Prop :=
  t.params = s.params ∧ t.width = s.width ∧ t.height = s.height ∧ t.len = s.len ∧ t.cfg = s.cfg ∧ t.curX = s.curX ∧
    t.curY = s.curY

/-- The cursor invariant passes from a state of a frame to another with the same cursor. -/
theorem CursorInv.of_sameMapper {s t : State} (h : CursorInv s) (hsame : SameMapper s t)
    (hbusy : t.state.phase = .busy → s.state.phase = .busy)
    (hstart : t.state = .pre ∨ t.state = .preFl → s.state = .pre ∨ s.state = .preFl) : CursorInv t := by
  obtain ⟨-, hwidth, hheight, hlen, hcfg, hx, hy⟩ := hsame
  obtain ⟨hrun, hrest⟩ := h
  simp only [CursorInv, State.mapperFrame, State.busy, State.preOk, State.offsetB, State.cfgMaplit, State.cfgSrc, hwidth,
    hheight, hlen, hcfg, hx, hy, Bool.and_eq_true, decide_eq_true_eq] at hrun hrest ⊢
  refine ⟨fun ht => hrun ⟨hbusy ht.1, ht.2⟩, fun ht => hrest ?_⟩
  rcases ht with ht | ht | ht
  · exact (hstart (.inl ht)).elim .inl fun hs => .inr (.inl hs)
  · exact (hstart (.inr ht)).elim .inl fun hs => .inr (.inl hs)
  · exact .inr (.inr ⟨hbusy ht.1, ht.2⟩)

/-- A move from a state of a frame that leaves configuration and cursor keeps the register invariants if the new state
meets the bounds, its row and the counters. -/
theorem RegInv.of_sameMapper {s t : State} (h : RegInv s) (hsame : SameMapper s t)
    (hbusy : t.state.phase = .busy → s.state.phase = .busy)
    (hstart : t.state = .pre ∨ t.state = .preFl → s.state = .pre ∨ s.state = .preFl)
    (hbound : BoundInv t) (hrow : RegRow t t.state) (hcounter : CounterInv t) : RegInv t := by
  obtain ⟨hwidth, -, -, hcursor, -⟩ := (regInv_iff s).mp h
  refine (regInv_iff t).mpr ⟨?_, hbound, hrow, hcursor.of_sameMapper hsame hbusy hstart, hcounter⟩
  obtain ⟨hp, hw, hh, hl, -, hx, hy⟩ := hsame
  simpa only [WidthInv, hp, hw, hh, hl, hx, hy] using hwidth

/-! The updates of one cycle. -/

theorem RegInv.afterWrites {s : State} (h : RegInv s) : RegInv s.afterWrites := by
  obtain ⟨m, u, heq⟩ := exists_afterWrites_eq s
  rw [heq]
  exact h

theorem RegInv.raiseError {s : State} (h : RegInv s) {c : ErrCode} (hc : c ≠ .noError) (q : SeqState) :
    RegInv (raiseError c q s) :=
  h.of_sameMapper ⟨rfl, rfl, rfl, rfl, rfl, rfl, rfl⟩ nofun nofun h.bounds ⟨hc, rfl⟩ h.counters

/-- Counting a byte that goes to the trace. -/
theorem CounterInv.emit_byte {s : State} (h : CounterInv s) (b : Byte) :
    s.samples = BitVec.ofNat 32 s.taken.length ∧ s.txBytes + 1 = BitVec.ofNat 32 (byteCount (s.trace ++ [.byte b])) := by
  obtain ⟨hsamples, htx⟩ := h
  exact ⟨hsamples, by rw [htx, byteCount_append, byteCount_byte]; exact (BitVec.ofNat_add _ 1).symm⟩

/-- An event that is no byte leaves the count. -/
theorem CounterInv.emit_other {s : State} (h : CounterInv s) {e : Event} (he : byteCount [e] = 0) :
    s.samples = BitVec.ofNat 32 s.taken.length ∧ s.txBytes = BitVec.ofNat 32 (byteCount (s.trace ++ [e])) := by
  obtain ⟨hsamples, htx⟩ := h
  exact ⟨hsamples, by rw [htx, byteCount_append, he, Nat.add_zero]⟩

/-- A sample enters the packer in RUN or FETCH (R132). -/
theorem RegInv.acceptSample {s : State} (h : RegInv s) (hs : s.state = .run ∨ s.state = .fetch) (b : Byte) :
    RegInv (acceptSample b s) := by
  obtain ⟨-, ⟨hacc, -, hbyte8, hpre, htail⟩, -, -, hsamples, htx⟩ := (regInv_iff s).mp h
  obtain ⟨hbit, hbyte, hframe, heoi, hdone, herr⟩ :
      s.bitCnt ≤ 7 ∧ s.byteCnt ≤ 7 ∧ InFrameInv s ∧ s.eoi = false ∧ s.done = false ∧ NoErrorInv s := by
    rcases hs with hs | hs
    · exact h.row hs
    · obtain ⟨hbit, hbyte, hframe, heoi, -, hdone, herr⟩ := h.row hs
      exact ⟨hbit, hbyte, hframe, heoi, hdone, herr⟩
  have hacc' := packBit_lt s.acc s.bitCnt b hacc hbit
  have hbusy : s.state.phase = .busy := by rcases hs with hs | hs <;> rw [hs] <;> rfl
  have hcounter : CounterInv (Machine.acceptSample b s) := by
    refine ⟨?_, htx⟩
    rw [acceptSample_samples, acceptSample_taken, List.length_append, List.length_singleton, hsamples]
    exact (BitVec.ofNat_add _ 1).symm
  refine h.of_sameMapper ⟨rfl, rfl, rfl, rfl, rfl, rfl, rfl⟩ (fun _ => hbusy) ?_ ?_ ?_ hcounter
  · rw [acceptSample_state]
    split <;> simp
  · refine ⟨?_, ?_, hbyte8, hpre, htail⟩
    · by_cases h7 : s.bitCnt = 7
      · simpa [h7] using hacc'
      · rwa [acceptSample_acc, acceptSample_bitCnt, if_neg h7,
          show (s.bitCnt + 1).toNat = s.bitCnt.toNat + 1 by bv_omega]
    · by_cases h7 : s.bitCnt = 7
      · simp [h7]
      · rw [acceptSample_bitCnt, if_neg h7]; bv_omega
  · by_cases h7 : s.bitCnt = 7
    · rw [acceptSample_state, if_pos h7]
      exact ⟨by simp [h7], by simp [h7, heoi], hbyte, hframe, hdone, herr⟩
    · rw [acceptSample_state, if_neg h7]
      exact ⟨by rw [acceptSample_bitCnt, if_neg h7]; bv_omega, hbyte, hframe, heoi, hdone, herr⟩

/-- The end of input in RUN (R157). -/
theorem RegInv.endOfInput {s : State} (h : RegInv s) (hs : s.state = .run) : RegInv (endOfInput s) := by
  obtain ⟨-, ⟨hacc, hbit8, hbyte8, hpre, -⟩, -, -, hcounter⟩ := (regInv_iff s).mp h
  obtain ⟨hbit, hbyte, hframe, -, hdone, herr⟩ := h.row hs
  have hbusy : s.state.phase = .busy := by rw [hs]; rfl
  have htail : s.bitCnt &&& 7 ≤ 7 := by
    rw [BitVec.le_def, BitVec.toNat_and]
    exact Nat.and_le_right
  rcases endOfInput_cases s with ⟨-, hne, heq⟩ | ⟨-, heq⟩ <;> rw [heq]
  · refine h.of_sameMapper ⟨rfl, rfl, rfl, rfl, rfl, rfl, rfl⟩ (fun _ => hbusy) nofun
      ⟨hacc, hbit8, hbyte8, hpre, htail⟩ ?_ hcounter
    exact ⟨by bv_omega, ⟨fun h8 => absurd h8 (by bv_omega), nofun⟩, hbyte, hframe, hdone, herr⟩
  · refine h.of_sameMapper ⟨rfl, rfl, rfl, rfl, rfl, rfl, rfl⟩ (fun _ => hbusy) nofun
      ⟨by simp, by simp, hbyte8, hpre, htail⟩ ?_ hcounter
    exact ⟨⟨rfl, rfl⟩, hbyte, hframe, rfl, hdone, herr⟩

/-- Where a running frame goes when a byte or a pause is done: RUN or END_FL, each with its row. -/
theorem regRow_resume {s t : State} (hstate : t.state = s.resume) (heoi : t.eoi = s.eoi) (hbits : NoBits t)
    (hbyte : t.byteCnt ≤ 7) (hframe : InFrameInv t) (hdone : t.done = false) (herr : NoErrorInv t) :
    RegRow t t.state := by
  rw [hstate, State.resume]
  cases he : s.eoi with
  | true => exact ⟨hbits, hbyte, hframe, heoi.trans he, hdone, herr⟩
  | false => exact ⟨by simp [hbits.2], hbyte, hframe, heoi.trans he, hdone, herr⟩

/-- The two cases of the cursor advance (R107). -/
theorem advance_cases (H x y : Nat) :
    (x + 1 = H ∧ advance H x y = (0, y + 1)) ∨ (x + 1 ≠ H ∧ advance H x y = (x + 1, y)) := by
  by_cases hwrap : x + 1 = H
  · exact .inl ⟨hwrap, if_pos hwrap⟩
  · exact .inr ⟨hwrap, if_neg hwrap⟩

/-- The mapper step (R106) moves the cursor inside its bounds. -/
theorem RegInv.mapperStep {s : State} (h : RegInv s) (hs : s.state = .run) (hsrc : s.cfgSrc = false)
    (hb : s.indexInBounds = true) : RegInv (mapperStep s) := by
  obtain ⟨hwidth, hbound, -, hcursor, hcounter⟩ := (regInv_iff s).mp h
  obtain ⟨hbit, hbyte, hframe, heoi, hdone, herr⟩ := h.row hs
  have hm : s.mapperFrame = true := by simp [State.mapperFrame, State.busy, hs, SeqState.phase, hsrc]
  obtain ⟨hxlt, hyle, hx, hy, -⟩ := mapperStep_spec s hwidth hcursor hm hb
  have hpre := h.preOk hm
  refine (regInv_iff _).mpr ⟨?_, hbound, ⟨hbit, hbyte, hframe, heoi, hsrc, hdone, herr⟩, ⟨fun _ => ?_, ?_⟩, hcounter⟩
  · obtain ⟨hlegal, hw, hh, hl, -, -⟩ := hwidth
    exact ⟨hlegal, hw, hh, hl, lowBits_lt _ _ _, lowBits_lt _ _ _⟩
  · rcases advance_cases s.height.toNat s.curX.toNat s.curY.toNat with ⟨-, hadvance⟩ | ⟨hinside, hadvance⟩ <;>
      rw [hadvance] at hx hy
    · have hzero : (Machine.mapperStep s).curX = 0 := BitVec.eq_of_toNat_eq hx
      refine ⟨hpre, fun hne => absurd hzero hne, ?_, fun hne => absurd hzero hne⟩
      rw [hy]
      show s.curY.toNat + 1 ≤ s.height.toNat + 1 - s.offsetB
      omega
    · refine ⟨hpre, fun _ => ?_, ?_, fun _ => ?_⟩
      · rw [hx]
        show s.curX.toNat + 1 < s.height.toNat
        omega
      · rw [hy]
        show s.curY.toNat ≤ s.height.toNat + 1 - s.offsetB
        omega
      · rw [hy]
        exact hyle
  · rintro (hq | hq | ⟨-, hq⟩)
    · cases hq
    · cases hq
    · exact absurd (hsrc.symm.trans hq) nofun

/-- Every state's own action keeps the register invariants. -/
theorem RegInv.ownStep {s : State} (h : RegInv s) : RegInv (ownStep s) := by
  obtain ⟨hwidth, ⟨hacc, hbit8, hbyte8, hpre11, htail⟩, -, -, hcounter⟩ := (regInv_iff s).mp h
  have hbusy : ∀ {q}, s.state = q → q.phase = .busy → s.state.phase = .busy := fun hs hq => hs ▸ hq
  refine ownStep_cases h (fun hs _ => ?_) (fun hs _ => ?_) h.mapperStep (fun hs _ _ => h.endOfInput hs)
    (fun hs => ?_) (fun hs _ => ?_) (fun hs _ => ?_) (fun hs _ => ?_) (fun hs h1 => ?_) (fun hs h1 => ?_)
    (fun hs _ => ?_)
  · obtain ⟨hbits, hbyte, hpre, hpause, heoi, hdone, herr⟩ := h.row hs
    refine h.of_sameMapper ⟨rfl, rfl, rfl, rfl, rfl, rfl, rfl⟩ (fun _ => hbusy hs rfl) (fun _ => .inl hs)
      ⟨hacc, hbit8, hbyte8, ?_, htail⟩ ?_ (hcounter.emit_byte _)
    · show s.preCnt + 1 ≤ 11
      bv_omega
    · by_cases h10 : s.preCnt = 10
      · rw [emitEvent_state, if_pos h10]
        exact ⟨hbits, hbyte, ⟨by simp [h10], hpause⟩, heoi, hdone, herr⟩
      · rw [emitEvent_state, if_neg h10]
        refine ⟨hbits, hbyte, ?_, hpause, heoi, hdone, herr⟩
        show s.preCnt + 1 ≤ 10
        bv_omega
  · obtain ⟨hbits, hbyte, hframe, heoi, hdone, herr⟩ := h.row hs
    exact h.of_sameMapper ⟨rfl, rfl, rfl, rfl, rfl, rfl, rfl⟩ (fun _ => hbusy hs rfl) nofun
      ⟨hacc, hbit8, hbyte8, hpre11, htail⟩ ⟨by simp [hbits.2], by simp [hbyte], hframe, heoi, hdone, herr⟩
      (hcounter.emit_other rfl)
  · exact RegInv.acceptSample (s := { s with draws := s.drawsAfterRead }) h (.inr hs) _
  · obtain ⟨-, -, hbyte, ⟨hpre, hpause⟩, hdone, herr⟩ := h.row hs
    have hnext : (if s.byteCnt = 7 then SeqState.pad else s.resume) ≠ .pre ∧
        (if s.byteCnt = 7 then SeqState.pad else s.resume) ≠ .preFl := by
      split
      · exact ⟨nofun, nofun⟩
      · rcases resume_eq s with hq | hq <;> simp [hq]
    refine h.of_sameMapper ⟨rfl, rfl, rfl, rfl, rfl, rfl, rfl⟩ (fun _ => hbusy hs rfl)
      (fun hq => hq.elim (fun h => absurd h hnext.1) fun h => absurd h hnext.2)
      ⟨by simp, by simp, ?_, hpre11, htail⟩ ?_ (hcounter.emit_byte _)
    · by_cases h7 : s.byteCnt = 7
      · simp [h7]
      · simp only [emitEvent_byteCnt, if_neg h7]; bv_omega
    · by_cases h7 : s.byteCnt = 7
      · rw [emitEvent_state, if_pos h7]
        exact ⟨⟨rfl, rfl⟩, by simp [h7], ⟨hpre, hpause⟩, hdone, herr⟩
      · refine regRow_resume (s := s) (if_neg h7) rfl ⟨rfl, rfl⟩ ?_ ⟨hpre, hpause⟩ hdone herr
        simp only [emitEvent_byteCnt, if_neg h7]
        bv_omega
  · obtain ⟨hbits, -, hframe, hdone, herr⟩ := h.row hs
    exact h.of_sameMapper ⟨rfl, rfl, rfl, rfl, rfl, rfl, rfl⟩ (fun _ => hbusy hs rfl) nofun
      ⟨hacc, hbit8, by simp, hpre11, htail⟩ ⟨hbits, rfl, hframe, hdone, herr⟩ (hcounter.emit_byte _)
  · obtain ⟨hbits, hbyte, ⟨hpre, -⟩, hdone, herr⟩ := h.row hs
    obtain ⟨-, -, -, -, hpause, -⟩ := hwidth.1
    exact h.of_sameMapper ⟨rfl, rfl, rfl, rfl, rfl, rfl, rfl⟩ (fun _ => hbusy hs rfl) nofun
      ⟨hacc, hbit8, hbyte8, hpre11, htail⟩ ⟨hbits, hbyte, hpre, hpause, hdone, herr⟩ (hcounter.emit_other rfl)
  · obtain ⟨hbits, hbyte, hpre, hpause, hdone, herr⟩ := h.row hs
    refine h.of_sameMapper ⟨rfl, rfl, rfl, rfl, rfl, rfl, rfl⟩ (fun _ => hbusy hs rfl) (by simp [hs])
      ⟨hacc, hbit8, hbyte8, hpre11, htail⟩ ?_ hcounter
    rw [show ({ s with pauseCnt := s.pauseCnt - 1 } : State).state = .pause from hs]
    refine ⟨hbits, hbyte, hpre, ?_, hdone, herr⟩
    show s.pauseCnt - 1 ≠ 0
    bv_omega
  · obtain ⟨hbits, hbyte, hpre, hpause, hdone, herr⟩ := h.row hs
    refine h.of_sameMapper ⟨rfl, rfl, rfl, rfl, rfl, rfl, rfl⟩ (fun _ => hbusy hs rfl) ?_
      ⟨hacc, hbit8, hbyte8, hpre11, htail⟩ ?_ (hcounter.emit_other rfl)
    · rcases resume_eq s with hq | hq <;> simp [hq]
    · refine regRow_resume (s := s) rfl rfl hbits (by simp [hbyte]) ⟨hpre, ?_⟩ hdone herr
      simp [h1]
  · obtain ⟨hbits, hbyte, ⟨-, hpause⟩, -, -, herr⟩ := h.row hs
    exact h.of_sameMapper ⟨rfl, rfl, rfl, rfl, rfl, rfl, rfl⟩ nofun nofun
      ⟨hacc, hbit8, hbyte8, hpre11, htail⟩ ⟨by simp [hbits.2], hbyte, hpause, herr⟩ (hcounter.emit_other rfl)

/-! The commands that act, and reset. -/

/-- Outside a frame the cursor is not bound. -/
theorem cursorInv_of_not_busy {s : State} (h : s.state = .idle ∨ s.state = .error) : CursorInv s := by
  rcases h with hs | hs <;> simp [CursorInv, State.mapperFrame, State.busy, SeqState.phase, hs]

/-- In IDLE a configuration register takes any value of its width. -/
theorem RegInv.of_config {s t : State} (h : RegInv s) (hs : s.state = .idle) (hwidth : WidthInv t)
    (ht : t = { s with width := t.width, height := t.height, len := t.len, cfg := t.cfg }) : RegInv t := by
  obtain ⟨-, hbound, hrow, -, hcounter⟩ := (regInv_iff s).mp h
  rw [hs] at hrow
  rw [ht] at hwidth ⊢
  exact (regInv_iff _).mpr ⟨hwidth, hbound, by rw [hs]; exact hrow, cursorInv_of_not_busy (.inl hs), hcounter⟩

theorem RegInv.startFrame {s : State} (h : RegInv s) (hs : s.state = .idle) : RegInv (startFrame s) := by
  obtain ⟨⟨hlegal, hw, hh, hl, -, -⟩, -, hrow, -, -⟩ := (regInv_iff s).mp h
  rw [hs] at hrow
  obtain ⟨-, -, -, herr⟩ := hrow
  have hwidth : WidthInv (clearFrame s) := ⟨hlegal, hw, hh, hl, by simp, by simp⟩
  have hbound : BoundInv (clearFrame s) := by simp [BoundInv]
  have hcounter : CounterInv (clearFrame s) := ⟨rfl, rfl⟩
  unfold Machine.startFrame
  split
  · exact (regInv_iff _).mpr ⟨hwidth, hbound, ⟨nofun, rfl⟩, cursorInv_of_not_busy (.inr rfl), hcounter⟩
  · next hok =>
    refine (regInv_iff _).mpr
      ⟨hwidth, hbound, ⟨⟨rfl, rfl⟩, rfl, by simp, rfl, rfl, rfl, herr⟩, ⟨fun hm => ?_, ?_⟩, hcounter⟩
    · have hsrc : s.cfgSrc = false := (by simpa [State.mapperFrame, State.cfgSrc] using hm : _ ∧ _).2
      have hpre : s.preOk = true := by simpa [hsrc] using hok
      exact ⟨hpre, fun hne => absurd rfl hne, by simp, fun hne => absurd rfl hne⟩
    · exact fun _ => ⟨rfl, rfl⟩

theorem RegInv.clearRegisters {s : State} (h : RegInv s) : RegInv (clearRegisters s) := by
  obtain ⟨⟨hlegal, hw, hh, hl, -, -⟩, ⟨-, -, -, -, htail⟩, -, -, hcounter⟩ := (regInv_iff s).mp h
  exact (regInv_iff _).mpr ⟨⟨hlegal, hw, hh, hl, by simp, by simp⟩, ⟨by simp, by simp, by simp, by simp, htail⟩,
    ⟨by simp, by simp, rfl, rfl, rfl⟩, cursorInv_of_not_busy (.inl rfl), hcounter⟩

theorem RegInv.resetRegisters {s : State} (h : RegInv s) : RegInv (resetRegisters s) := by
  obtain ⟨⟨hlegal, -⟩, -⟩ := (regInv_iff s).mp h
  have ⟨hdimBits, _, haddrBits, _⟩ := hlegal
  have hdim : 2 ^ 7 ≤ 2 ^ s.params.dimBits := Nat.pow_le_pow_right (by decide) hdimBits
  have haddr : 2 ^ 13 ≤ 2 ^ s.params.addrBits := Nat.pow_le_pow_right (by decide) haddrBits
  refine (regInv_iff _).mpr ⟨⟨hlegal, ?_, ?_, ?_, by simp, by simp⟩, by simp [BoundInv],
    ⟨by simp, by simp, rfl, rfl, rfl⟩, cursorInv_of_not_busy (.inl rfl), ⟨rfl, rfl⟩⟩
  · exact lt_of_lt_of_le (show 64 < 2 ^ 7 by decide) hdim
  · exact lt_of_lt_of_le (show 64 < 2 ^ 7 by decide) hdim
  · exact lt_of_lt_of_le (show 4096 < 2 ^ 13 by decide) haddr

theorem RegInv.commandAct {s : State} (h : RegInv s) {i : Instr} (hact : verdict i.opcode s.state s.cfgSrc = .act)
    (hn : i.opcode ≠ .nop) : RegInv (commandAct i s) := by
  obtain ⟨hlegal, hw, hh, hl, hx, hy⟩ := h.1
  exact commandAct_cases hact hn
    (fun _ hs => h.of_config hs ⟨hlegal, lowBits_lt _ _ _, hh, hl, hx, hy⟩ rfl)
    (fun _ hs => h.of_config hs ⟨hlegal, hw, lowBits_lt _ _ _, hl, hx, hy⟩ rfl)
    (fun _ hs => h.of_config hs ⟨hlegal, hw, hh, lowBits_lt _ _ _, hx, hy⟩ rfl)
    (fun _ hs => h.of_config hs h.1 rfl) (fun _ => h.startFrame) (fun b hs _ => h.acceptSample (.inl hs) b)
    (fun hs _ => h.endOfInput hs) fun _ => h.clearRegisters

/-- An error a cycle raises is a code of its own (R201). -/
theorem ownError_ne_noError {s : State} {c : ErrCode} (h : ownError s = some c) : c ≠ .noError := by
  rcases (ownError_eq_some s c).mp h with ⟨-, -, rfl⟩ | ⟨-, -, rfl⟩ <;> exact nofun

theorem verdict_error_ne_noError {op : Opcode} {st : SeqState} {stream : Bool} {c : ErrCode}
    (h : verdict op st stream = .error c) : c ≠ .noError := by
  rcases (verdict_eq_error op st stream c h).2 with rfl | ⟨rfl, -⟩ <;> exact nofun

theorem RegInv.effect {s r : State} (h : RegInv s) (hr : CycleEffect s r) : RegInv r := by
  cases hr with
  | reset => exact h.resetRegisters
  | ownError c _ ho => exact h.raiseError (ownError_ne_noError ho) _
  | own => exact h.ownStep
  | act i _ _ _ hact hn => exact h.commandAct hact hn
  | commandError i c _ _ _ _ herr => exact h.ownStep.raiseError (verdict_error_ne_noError herr) _

/-- Settles O56: the host's writes touch no register, and every effect of a cycle keeps the invariants. -/
theorem stepKeepsTheRegisterInvariants : Obligations.StepKeepsTheRegisterInvariants := fun _ _ h hstep =>
  property_of_step h RegInv.afterWrites RegInv.effect (fun hu => hu) hstep

end Sys2Proof.Machine
end

section
/-! PROOFS. The sequencer carries out the frame function (R163, R145): the frame relation read off state by state, and
kept by every step. -/

namespace Sys2Proof.Machine

/-! What a state past the preamble has produced and owes, as the variables of R145's loop. -/

/-- The loop's variables once the owed events are out. -/
def State.packVars (s : State) : PackState := ⟨s.trace ++ s.pending, s.accAfter, s.bitsAfter, s.bytesAfter⟩

/-- RUN, FETCH and END_FL owe nothing. -/
theorem packVars_of_rest {s : State} (hs : s.state = .run ∨ s.state = .fetch ∨ s.state = .endFl) :
    s.packVars = ⟨s.trace, s.acc, s.bitCnt.toNat, s.byteCnt.toNat⟩ := by
  rcases hs with hs | hs | hs <;>
    simp [State.packVars, State.pending, State.accAfter, State.bitsAfter, State.bytesAfter, hs]

/-- EMIT owes what a payload byte adds to the loop's variables (R136). -/
theorem packVars_of_emit {s : State} (hs : s.state = .emit) (n : Nat) :
    s.packVars = packPayload ⟨s.trace, s.acc, n, s.byteCnt.toNat⟩ := by
  have h7 : s.byteCnt.toNat = 7 ↔ s.byteCnt = 7 := ⟨fun h => BitVec.eq_of_toNat_eq h, fun h => h ▸ rfl⟩
  simp [State.packVars, State.pending, State.accAfter, State.bitsAfter, State.bytesAfter, hs, packPayload_eq, h7,
    blockEvents]

theorem packVars_of_pad {s : State} (hs : s.state = .pad) :
    s.packVars = ⟨s.trace ++ blockEvents, s.acc, s.bitCnt.toNat, 0⟩ := by
  simp [State.packVars, State.pending, State.accAfter, State.bitsAfter, State.bytesAfter, hs]

theorem packVars_of_blkFl {s : State} (hs : s.state = .blkFl) :
    s.packVars = ⟨s.trace ++ [.flush, .pause], s.acc, s.bitCnt.toNat, s.byteCnt.toNat⟩ := by
  simp [State.packVars, State.pending, State.accAfter, State.bitsAfter, State.bytesAfter, hs]

theorem packVars_of_pause {s : State} (hs : s.state = .pause) :
    s.packVars = ⟨s.trace ++ [.pause], s.acc, s.bitCnt.toNat, s.byteCnt.toNat⟩ := by
  simp [State.packVars, State.pending, State.accAfter, State.bitsAfter, State.bytesAfter, hs]

theorem packVars_of_resume {s t : State} (hs : t.state = s.resume) :
    t.packVars = ⟨t.trace, t.acc, t.bitCnt.toNat, t.byteCnt.toNat⟩ := by
  refine packVars_of_rest ?_
  rcases resume_eq s with hq | hq <;> simp [hs, hq]

/-- The relation of R163 in a state past the preamble: before the end of input the loop of R145, after it the whole
frame but for the trailing flush. -/
abbrev PackInv (s : State) : Prop :=
  (s.eoi = false → packAll s.taken = s.packVars) ∧ (s.eoi = true → s.packVars.ev ++ [.flush] = frame s.taken s.cfgTail)

/-- The trace is the beginning of the frame function's under CFG.TAIL. -/
abbrev TracePrefix (s : State) : Prop := s.trace <+: frame s.taken s.cfgTail

/-- The trace is the beginning of the frame function's under one of the two policies. -/
abbrev TracePrefixOfSome (s : State) : Prop := ∃ pad : Bool, s.trace <+: frame s.taken pad

/-- What the frame relation says in one state of the sequencer: the row of that state. -/
def FrameRow (s : State) : SeqState → Prop
  | .idle => (s.done = true → ∃ pad : Bool, s.trace = frame s.taken pad) ∧ TracePrefixOfSome s
  | .pre => s.taken = [] ∧ s.trace = List.replicate s.preCnt.toNat (.byte Config.preByte)
  | .preFl => s.taken = [] ∧ s.trace = List.replicate Config.preLen (.byte Config.preByte)
  | .error => (s.errState ≠ .idle → TracePrefix s) ∧ TracePrefixOfSome s
  | .run => PackInv s
  | .fetch => PackInv s
  | .emit => PackInv s
  | .pad => PackInv s
  | .blkFl => PackInv s
  | .pause => PackInv s
  | .endFl => PackInv s

/-! A running frame's trace is a beginning of the frame function's. -/

theorem tracePrefix_of_preamble {s : State} {n : Nat} (hn : n ≤ Config.preLen) (htaken : s.taken = [])
    (htrace : s.trace = List.replicate n (.byte Config.preByte)) : TracePrefix s := by
  rw [TracePrefix, htaken, htrace]
  refine prefix_frame _ _ _ ?_
  obtain ⟨k, hk⟩ := Nat.exists_eq_add_of_le hn
  show _ <+: List.replicate Config.preLen (Event.byte Config.preByte) ++ [Event.flush]
  rw [hk, List.replicate_add, List.append_assoc]
  exact List.prefix_append _ _

theorem tracePrefix_of_packInv {s : State} (h : PackInv s) : TracePrefix s := by
  have howed : s.trace <+: s.packVars.ev := List.prefix_append _ _
  cases heoi : s.eoi with
  | true =>
    rw [TracePrefix, ← h.2 heoi]
    exact howed.trans (List.prefix_append _ _)
  | false =>
    rw [← h.1 heoi] at howed
    exact prefix_frame _ _ _ howed

theorem tracePrefix_of_busy {s : State} (hreg : RegInv s) (hrow : FrameRow s s.state) (hbusy : s.state.phase = .busy) :
    TracePrefix s := by
  cases hs : s.state with
  | idle => simp [hs, SeqState.phase] at hbusy
  | error => simp [hs, SeqState.phase] at hbusy
  | pre =>
    rw [hs] at hrow
    obtain ⟨-, -, hpre, -⟩ := hreg.row hs
    refine tracePrefix_of_preamble ?_ hrow.1 hrow.2
    show _ ≤ 11
    bv_omega
  | preFl =>
    rw [hs] at hrow
    exact tracePrefix_of_preamble le_rfl hrow.1 hrow.2
  | _ =>
    rw [hs] at hrow
    exact tracePrefix_of_packInv hrow

/-- The frame relation is the row of the state, with the prefix in a busy state. -/
theorem frameInv_iff_of_prefix {s : State} (hprefix : FrameRow s s.state → s.state.phase = .busy → TracePrefix s) :
    FrameInv s ↔ FrameRow s s.state := by
  have hpad : TracePrefix s → TracePrefixOfSome s := fun h => ⟨_, h⟩
  cases hs : s.state <;> rw [hs] at hprefix <;>
    simp only [FrameInv, FrameRow, PackInv, TracePrefixOfSome, State.packVars, hs, SeqState.inFrame, SeqState.phase,
      reduceCtorEq, forall_const, true_and, false_and, or_false, false_or, false_implies, ne_eq, and_assoc]
      at hprefix hpad ⊢ <;>
    tauto

theorem frameInv_iff {s : State} (hreg : RegInv s) : FrameInv s ↔ FrameRow s s.state :=
  frameInv_iff_of_prefix (tracePrefix_of_busy hreg)

/-! The moves of a frame past the preamble. -/

/-- The states past the preamble have one relation. -/
theorem frameRow_of_packInv {s : State} (hin : s.state.inFrame = true) (h : PackInv s) : FrameRow s s.state := by
  cases hs : s.state with
  | idle => simp [hs, SeqState.inFrame] at hin
  | pre => simp [hs, SeqState.inFrame] at hin
  | preFl => simp [hs, SeqState.inFrame] at hin
  | error => simp [hs, SeqState.inFrame] at hin
  | _ => exact h

/-- A move that pays a part of the owed events, or none, keeps the relation. -/
theorem PackInv.of_paid {s t : State} (h : PackInv s) (heoi : t.eoi = s.eoi) (htaken : t.taken = s.taken)
    (hcfg : t.cfg = s.cfg) (hvars : t.packVars = s.packVars) : PackInv t := by
  have htail : t.cfgTail = s.cfgTail := by rw [State.cfgTail, hcfg]; rfl
  simpa only [PackInv, heoi, htaken, htail, hvars] using h

/-- A sample enters the packer: one turn of R145's loop (R132). -/
theorem PackInv.acceptSample {s : State} (hreg : RegInv s) (hs : s.state = .run ∨ s.state = .fetch) (h : PackInv s)
    (b : Byte) : PackInv (acceptSample b s) := by
  obtain ⟨hbit, heoi⟩ : s.bitCnt ≤ 7 ∧ s.eoi = false := by
    rcases hs with hs | hs
    · obtain ⟨hbit, -, -, heoi, -⟩ := hreg.row hs
      exact ⟨hbit, heoi⟩
    · obtain ⟨hbit, -, -, heoi, -⟩ := hreg.row hs
      exact ⟨hbit, heoi⟩
  have hlane : s.bitCnt.toNat % 8 = s.bitCnt.toNat := by bv_omega
  refine ⟨fun _ => ?_, fun htrue => absurd (heoi.symm.trans htrue) nofun⟩
  rw [acceptSample_taken, packAll_append, h.1 heoi, packVars_of_rest (hs.elim .inl fun h => .inr (.inl h)), packSample]
  by_cases h7 : s.bitCnt = 7
  · have h8 : s.bitCnt.toNat + 1 = Config.bitsPerByte := by rw [h7]; rfl
    rw [packVars_of_emit (by simp [h7]) (s.bitCnt.toNat + 1)]
    simp only [h8, if_true, acceptSample_acc, packBit, hlane]
    rfl
  · have h8 : ¬ s.bitCnt.toNat + 1 = Config.bitsPerByte := by show ¬ _ = 8; bv_omega
    have hnext : (s.bitCnt + 1).toNat = s.bitCnt.toNat + 1 := by bv_omega
    rw [packVars_of_rest (.inl (if_neg h7)), acceptSample_bitCnt, if_neg h7, hnext]
    simp only [h8, if_false, acceptSample_acc, packBit, hlane]
    rfl

/-- The end of input is the end of R145's loop: the tail byte under PAD, then the trailing flush (R157). -/
theorem PackInv.endOfInput {s : State} (hreg : RegInv s) (hs : s.state = .run) (h : PackInv s) :
    PackInv (endOfInput s) := by
  obtain ⟨-, -, -, heoi, -⟩ := hreg.row hs
  have hpack : packAll s.taken = ⟨s.trace, s.acc, s.bitCnt.toNat, s.byteCnt.toNat⟩ :=
    (h.1 heoi).trans (packVars_of_rest (.inl hs))
  rcases endOfInput_cases s with ⟨htail, hne, heq⟩ | ⟨htail, heq⟩ <;> rw [heq] <;> refine ⟨nofun, fun _ => ?_⟩
  · have hpos : 0 < s.bitCnt.toNat := by bv_omega
    rw [packVars_of_emit rfl s.bitCnt.toNat]
    show _ = packEnd (packAll s.taken) s.cfgTail
    rw [packEnd, hpack, if_pos ⟨hpos, htail⟩]
  · have hno : ¬ (0 < s.bitCnt.toNat ∧ s.cfgTail = true) := by
      rcases htail with htail | hzero
      · simp [htail]
      · simp [hzero]
    rw [packVars_of_rest (.inr (.inr rfl))]
    show _ = packEnd (packAll s.taken) s.cfgTail
    rw [packEnd, hpack, if_neg hno]

/-- What the step from END_FL that completes the frame leaves. -/
abbrev CompletesFrame (s t : State) : Prop :=
  s.state = .endFl → t.done = true → t.state = .idle ∧ t.taken = s.taken ∧ t.trace = frame t.taken t.cfgTail

/-- A sequencer step of EMIT: the byte is paid, and block work or the next sample follows. -/
theorem packVars_emit_step {s t : State} (hs : s.state = .emit) (hbyte : s.byteCnt ≤ 7)
    (ht : t = emitEvent (.byte s.acc)
      { s with
        txBytes := s.txBytes + 1, acc := 0, bitCnt := 0, byteCnt := if s.byteCnt = 7 then 8 else s.byteCnt + 1
        state := if s.byteCnt = 7 then .pad else s.resume }) : t.packVars = s.packVars := by
  rw [packVars_of_emit hs 0, packPayload_eq]
  by_cases h7 : s.byteCnt = 7
  · rw [packVars_of_pad (by simp [ht, h7])]
    simp [ht, h7, blockEvents]
  · have hne : s.byteCnt.toNat ≠ 7 := fun h => h7 (BitVec.eq_of_toNat_eq h)
    have hnext : (s.byteCnt + 1).toNat = s.byteCnt.toNat + 1 := by bv_omega
    rw [packVars_of_resume (s := s) (by rw [ht]; exact if_neg h7), ht]
    simp only [emitEvent_trace, emitEvent_acc, emitEvent_bitCnt, emitEvent_byteCnt, if_neg h7, if_neg hne, hnext]
    rfl

/-- The own action keeps the row of its state, and in END_FL it completes the frame or waits. -/
theorem frameRow_ownStep {s : State} (hreg : RegInv s) (hrow : FrameRow s s.state) :
    FrameRow (ownStep s) (ownStep s).state ∧ CompletesFrame s (ownStep s) := by
  have hrow' : ∀ {q}, s.state = q → FrameRow s q := fun hs => hs ▸ hrow
  have hother : ∀ {q t}, s.state = q → q ≠ .endFl → CompletesFrame s t := fun hs hq he => absurd (hs.symm.trans he) hq
  have hresume : s.resume.inFrame = true := by rcases resume_eq s with hq | hq <;> rw [hq] <;> rfl
  refine ownStep_cases (P := fun t => FrameRow t t.state ∧ CompletesFrame s t) ?_ (fun hs _ => ?_) (fun hs _ => ?_)
    (fun hs _ _ => ?_) (fun hs _ _ => ?_) (fun hs => ?_) (fun hs _ => ?_) (fun hs _ => ?_) (fun hs _ => ?_)
    (fun hs h1 => ?_) (fun hs h1 => ?_) (fun hs _ => ?_)
  · refine ⟨hrow, fun hs hdone => ?_⟩
    obtain ⟨-, -, -, -, hnot, -⟩ := hreg.row hs
    exact absurd (hnot.symm.trans hdone) nofun
  · obtain ⟨htaken, htrace⟩ := hrow' hs
    obtain ⟨-, -, hpre, -⟩ := hreg.row hs
    refine ⟨?_, hother hs nofun⟩
    by_cases h10 : s.preCnt = 10
    · rw [emitEvent_state, if_pos h10]
      exact ⟨htaken, by rw [emitEvent_trace, htrace, h10]; exact (List.replicate_succ').symm⟩
    · rw [emitEvent_state, if_neg h10]
      have hnext : (s.preCnt + 1).toNat = s.preCnt.toNat + 1 := by bv_omega
      exact ⟨htaken, by rw [emitEvent_trace, emitEvent_preCnt, hnext, List.replicate_succ', htrace]⟩
  · obtain ⟨htaken, htrace⟩ := hrow' hs
    obtain ⟨⟨hacc, hbit⟩, hbyte, -, heoi, -⟩ := hreg.row hs
    refine ⟨⟨fun _ => ?_, fun htrue => absurd (heoi.symm.trans htrue) nofun⟩, hother hs nofun⟩
    rw [packVars_of_rest (.inl rfl)]
    simp only [emitEvent_trace, emitEvent_acc, emitEvent_bitCnt, emitEvent_byteCnt, emitEvent_taken, htaken, htrace, hacc,
      hbit, hbyte]
    rfl
  · refine ⟨PackInv.of_paid (s := s) (hrow' hs) rfl rfl rfl ?_, hother hs nofun⟩
    rw [packVars_of_rest (.inr (.inl rfl)), packVars_of_rest (.inl hs)]
    rfl
  · refine ⟨frameRow_of_packInv ?_ (PackInv.endOfInput hreg hs (hrow' hs)), hother hs nofun⟩
    rcases endOfInput_cases s with ⟨-, -, heq⟩ | ⟨-, heq⟩ <;> rw [heq] <;> rfl
  · refine ⟨frameRow_of_packInv ?_ (PackInv.acceptSample (s := { s with draws := s.drawsAfterRead }) hreg (.inr hs)
      (hrow' hs) _), hother hs nofun⟩
    rw [acceptSample_state]
    split <;> rfl
  · obtain ⟨-, -, hbyte, -⟩ := hreg.row hs
    refine ⟨frameRow_of_packInv ?_ (PackInv.of_paid (s := s) (hrow' hs) rfl rfl rfl (packVars_emit_step hs hbyte rfl)),
      hother hs nofun⟩
    rw [emitEvent_state]
    split
    · rfl
    · exact hresume
  · refine ⟨PackInv.of_paid (s := s) (hrow' hs) rfl rfl rfl ?_, hother hs nofun⟩
    rw [packVars_of_blkFl rfl, packVars_of_pad hs]
    simp [blockEvents]
  · refine ⟨PackInv.of_paid (s := s) (hrow' hs) rfl rfl rfl ?_, hother hs nofun⟩
    rw [packVars_of_pause rfl, packVars_of_blkFl hs]
    simp
  · refine ⟨?_, hother hs nofun⟩
    refine frameRow_of_packInv (by rw [show State.state _ = .pause from hs]; rfl)
      (PackInv.of_paid (s := s) (hrow' hs) rfl rfl rfl ?_)
    exact (packVars_of_pause (s := { s with pauseCnt := _ }) hs).trans (packVars_of_pause hs).symm
  · refine ⟨frameRow_of_packInv hresume (PackInv.of_paid (s := s) (hrow' hs) rfl rfl rfl ?_), hother hs nofun⟩
    rw [packVars_of_resume (s := s) rfl, packVars_of_pause hs]
    rfl
  · obtain ⟨-, -, -, heoi, -⟩ := hreg.row hs
    have hframe : s.trace ++ [.flush] = frame s.taken s.cfgTail := by
      have hpack : PackInv s := hrow' hs
      simpa only [packVars_of_rest (.inr (.inr hs))] using hpack.2 heoi
    exact ⟨⟨fun _ => ⟨_, hframe⟩, ⟨s.cfgTail, by rw [emitEvent_trace, hframe]; exact List.prefix_refl _⟩⟩,
      fun _ _ => ⟨rfl, rfl, hframe⟩⟩

/-! The effects of a cycle. -/

theorem tracePrefixOfSome_of_row {s : State} (hreg : RegInv s) (hrow : FrameRow s s.state) : TracePrefixOfSome s := by
  have hbusy : s.state.phase = .busy → TracePrefixOfSome s := fun h => ⟨_, tracePrefix_of_busy hreg hrow h⟩
  cases hs : s.state with
  | idle =>
    rw [hs] at hrow
    exact hrow.2
  | error =>
    rw [hs] at hrow
    exact hrow.2
  | _ => exact hbusy (by rw [hs]; rfl)

/-- The trace of a busy state after its own action is a beginning of the frame, also where that completes it. -/
theorem tracePrefix_ownStep {s : State} (hreg : RegInv s) (hrow : FrameRow s s.state) (hbusy : s.state.phase = .busy) :
    TracePrefix (ownStep s) := by
  obtain ⟨hrow', hcompletes⟩ := frameRow_ownStep hreg hrow
  rcases ownStep_busy_or_completes hbusy with ⟨hbusy', -⟩ | ⟨hs, -, heq⟩
  · exact tracePrefix_of_busy hreg.ownStep hrow' hbusy'
  · obtain ⟨-, -, htrace⟩ := hcompletes hs (by rw [heq]; rfl)
    rw [TracePrefix, ← htrace]

/-- An error keeps the trace, which is then a beginning of the frame's if a frame was running (R207). -/
theorem frameRow_raiseError {s : State} {c : ErrCode} {q : SeqState} (hrunning : q ≠ .idle → TracePrefix s)
    (hsome : TracePrefixOfSome s) : FrameRow (raiseError c q s) (raiseError c q s).state :=
  ⟨hrunning, hsome⟩

theorem frameRow_startFrame {s : State} (hs : s.state = .idle) : FrameRow (startFrame s) (startFrame s).state := by
  unfold startFrame
  split
  · rw [hs]
    exact ⟨fun h => absurd rfl h, ⟨true, List.nil_prefix⟩⟩
  · exact ⟨rfl, rfl⟩

theorem frameRow_commandAct {s : State} (hreg : RegInv s) (hrow : FrameRow s s.state) {i : Instr}
    (hact : verdict i.opcode s.state s.cfgSrc = .act) (hn : i.opcode ≠ .nop) :
    FrameRow (commandAct i s) (commandAct i s).state := by
  have hsome := tracePrefixOfSome_of_row hreg hrow
  have hidle : s.state = .idle → FrameRow s .idle := fun hs => hs ▸ hrow
  have hrun : s.state = .run → PackInv s := fun hs => (hs ▸ hrow : FrameRow s .run)
  refine commandAct_cases (P := fun t => FrameRow t t.state) hact hn ?_ ?_ ?_ ?_ (fun _ => frameRow_startFrame) ?_ ?_ ?_
  · exact fun _ hs => by rw [show State.state _ = .idle from hs]; exact hidle hs
  · exact fun _ hs => by rw [show State.state _ = .idle from hs]; exact hidle hs
  · exact fun _ hs => by rw [show State.state _ = .idle from hs]; exact hidle hs
  · exact fun _ hs => by rw [show State.state _ = .idle from hs]; exact hidle hs
  · intro b hs _
    refine frameRow_of_packInv ?_ ((hrun hs).acceptSample hreg (.inl hs) b)
    rw [acceptSample_state]
    split <;> rfl
  · intro hs _
    refine frameRow_of_packInv ?_ ((hrun hs).endOfInput hreg hs)
    rcases endOfInput_cases s with ⟨-, -, heq⟩ | ⟨-, heq⟩ <;> rw [heq] <;> rfl
  · exact fun _ => ⟨nofun, hsome⟩

theorem frameRow_effect {s r : State} (hreg : RegInv s) (hrow : FrameRow s s.state) (hr : CycleEffect s r) :
    FrameRow r r.state ∧ CompletesFrame s r := by
  have hsome := tracePrefixOfSome_of_row hreg hrow
  cases hr with
  | reset => exact ⟨⟨nofun, ⟨true, List.nil_prefix⟩⟩, nofun⟩
  | ownError c _ ho =>
    have hbusy : s.state.phase = .busy := by
      by_contra hne
      exact absurd (ho.symm.trans (ownError_none_of_not_busy s hne)) nofun
    exact ⟨frameRow_raiseError (fun _ => tracePrefix_of_busy hreg hrow hbusy) hsome, nofun⟩
  | own => exact frameRow_ownStep hreg hrow
  | act i _ _ _ hact hn =>
    refine ⟨frameRow_commandAct hreg hrow hact hn, fun hs => ?_⟩
    rw [hs, verdict_eq_act] at hact
    simp [hn] at hact
  | commandError i c _ _ _ _ herr =>
    refine ⟨frameRow_raiseError (fun hidle => ?_) (tracePrefixOfSome_of_row hreg.ownStep (frameRow_ownStep hreg hrow).1),
      nofun⟩
    exact tracePrefix_ownStep hreg hrow ((SeqState.phase_eq_busy_iff _).mpr ⟨hidle, (verdict_eq_error _ _ _ _ herr).1⟩)

/-- The host's writes touch neither trace nor datapath. -/
theorem frameInv_afterWrites {s : State} (h : FrameInv s) : FrameInv s.afterWrites := by
  obtain ⟨m, u, heq⟩ := exists_afterWrites_eq s
  rw [heq]
  exact h

/-- Settles O58: every effect of a cycle keeps the row of the state it leads to, and the one that leaves END_FL with DONE
completes the frame. -/
theorem stepKeepsTheFrameRelation : Obligations.StepKeepsTheFrameRelation := by
  intro s t hreg hframe hstep
  obtain ⟨r, hr, rfl⟩ := exists_effect_of_step hstep
  have hreg' := hreg.afterWrites
  obtain ⟨hrow, hcompletes⟩ := frameRow_effect hreg' ((frameInv_iff hreg').mp (frameInv_afterWrites hframe)) hr
  have hfinal : FrameInv r := (frameInv_iff (hreg'.effect hr)).mpr hrow
  refine ⟨hfinal, fun hs hdone => ?_⟩
  obtain ⟨m, u, heq⟩ := exists_afterWrites_eq s
  rw [heq] at hcompletes
  exact hcompletes hs hdone

end Sys2Proof.Machine
end

section
/-! PROOFS. The mapper sequence (R103 to R112): the position of the cursor after `k` advances, the length of the index
list, and its closed forms. -/

namespace Sys2Proof.Machine

/-- Settles O53: the index is linear in the cursor, and the advance changes one coordinate or wraps. -/
theorem indexHasAnIncrementalForm : Obligations.IndexHasAnIncrementalForm := by
  intro W H b x y
  refine ⟨by simp [mapIndex], ?_⟩
  unfold advance mapIndex
  split
  · push_cast
    ring
  · push_cast
    ring

/-- An advance inside the target is one position forward in target order (R113). -/
theorem advance_position {H x y : Nat} (hx : x < H) :
    (advance H x y).1 + (advance H x y).2 * H = x + y * H + 1 ∧ (advance H x y).1 < H := by
  unfold advance
  split
  · next hwrap => exact ⟨by rw [Nat.add_mul]; omega, by omega⟩
  · exact ⟨show x + 1 + y * H = _ by omega, show x + 1 < H by omega⟩

/-- The cursor after `k` advances from (0, 0) stands at column `k mod H` of row `k div H`. -/
theorem advance_mod_div (H k : Nat) : advance H (k % H) (k / H) = ((k + 1) % H, (k + 1) / H) := by
  rcases Nat.eq_zero_or_pos H with rfl | hH
  · simp [advance]
  · have hk : H * (k / H) + k % H = k := Nat.div_add_mod k H
    have hlt : k % H < H := Nat.mod_lt k hH
    unfold advance
    split
    · next hwrap =>
      have hk1 : k + 1 = H * (k / H + 1) := by rw [Nat.mul_add]; omega
      rw [hk1, Nat.mul_mod_right, Nat.mul_div_cancel_left _ hH]
    · next hstep =>
      have hk1 : k + 1 = k % H + 1 + H * (k / H) := by omega
      rw [hk1, Nat.add_mul_mod_self_left, Nat.add_mul_div_left _ _ hH, Nat.mod_eq_of_lt (show k % H + 1 < H by omega),
        Nat.div_eq_of_lt (show k % H + 1 < H by omega), Nat.zero_add]

/-- The index at the cursor's position after `k` advances. -/
def cursorIndex (W H b k : Nat) : Int := mapIndex W H b (k % H) (k / H)

/-- The test of R105. -/
abbrev InBounds (L : Nat) (i : Int) : Prop := 0 ≤ i ∧ i < L

/-- One turn of R108's loop from the position after `k` advances. -/
theorem mapperIdxFrom_succ (W H L b fuel k : Nat) :
    mapperIdxFrom W H L b (fuel + 1) (k % H) (k / H) =
      if InBounds L (cursorIndex W H b k) then
        (cursorIndex W H b k).toNat :: mapperIdxFrom W H L b fuel ((k + 1) % H) ((k + 1) / H)
      else [] := by
  rw [mapperIdxFrom, advance_mod_div]
  rfl

/-- R108's loop from the position after `k` advances, where the first index out of bounds is `n` advances ahead. -/
theorem mapperIdxFrom_eq_map {W H L b n fuel : Nat} (k : Nat) (hin : ∀ j < n, InBounds L (cursorIndex W H b (k + j)))
    (hout : ¬ InBounds L (cursorIndex W H b (k + n))) (hfuel : n < fuel) :
    mapperIdxFrom W H L b fuel (k % H) (k / H) = (List.range n).map fun j => (cursorIndex W H b (k + j)).toNat := by
  induction n generalizing k fuel with
  | zero =>
    obtain ⟨fuel, rfl⟩ := Nat.exists_eq_succ_of_ne_zero hfuel.ne'
    rw [mapperIdxFrom_succ, if_neg (by rwa [Nat.add_zero] at hout)]
    rfl
  | succ n ih =>
    obtain ⟨fuel, rfl⟩ := Nat.exists_eq_succ_of_ne_zero (Nat.ne_zero_of_lt hfuel)
    have hnext := ih (k + 1) (fuel := fuel) (fun j hj => by rw [Nat.add_assoc, Nat.add_comm 1]; exact hin (j + 1) (by omega))
      (by rwa [Nat.add_assoc, Nat.add_comm 1]) (by omega)
    rw [mapperIdxFrom_succ, if_pos (Nat.add_zero k ▸ hin 0 n.succ_pos), hnext, List.range_succ_eq_map, List.map_cons,
      List.map_map]
    refine congrArg₂ _ rfl (List.map_congr_left fun j _ => ?_)
    rw [Function.comp_apply, Nat.add_assoc, Nat.add_comm 1]

theorem mapperIdx_eq_map {W H L b n : Nat} (hin : ∀ j < n, InBounds L (cursorIndex W H b j))
    (hout : ¬ InBounds L (cursorIndex W H b n)) (hfuel : n < mapperFuel H) :
    mapperIdx W H L b = (List.range n).map fun j => (cursorIndex W H b j).toNat := by
  have h := mapperIdxFrom_eq_map (W := W) (H := H) (L := L) (b := b) 0 (by simpa using hin) (by simpa using hout) hfuel
  simpa only [mapperIdx, Nat.zero_mod, Nat.zero_div, Nat.zero_add] using h

/-- Under the length precondition the index is out of bounds before the bound on the iterations is reached: at the
latest where row H + 1 − b begins (R112). -/
theorem exists_first_out {W H b : Nat} (hb : b ≤ 1) :
    ∃ n < mapperFuel H, (∀ j < n, InBounds (W * H) (cursorIndex W H b j)) ∧ ¬ InBounds (W * H) (cursorIndex W H b n) := by
  have hlast : ¬ InBounds (W * H) (cursorIndex W H b (H * (H + 1 - b))) := by
    rcases Nat.eq_zero_or_pos H with rfl | hH
    · rintro ⟨hlo, hhi⟩
      rw [Nat.mul_zero] at hhi
      exact absurd (lt_of_le_of_lt hlo hhi) (lt_irrefl _)
    · rw [cursorIndex, Nat.mul_mod_right, Nat.mul_div_cancel_left _ hH, mapIndex]
      rintro ⟨hlo, -⟩
      push_cast at hlo
      omega
  have hex : ∃ n, ¬ InBounds (W * H) (cursorIndex W H b n) := ⟨_, hlast⟩
  refine ⟨Nat.find hex, lt_of_le_of_lt (Nat.find_min' hex hlast) ?_, fun j hj => not_not.mp (Nat.find_min hex hj),
    Nat.find_spec hex⟩
  have hle : H * (H + 1 - b) ≤ H * (H + 1) := Nat.mul_le_mul_left H (by omega)
  have hfuel : mapperFuel H = H * (H + 1) + 2 * (H + 1) := Nat.add_mul H 2 (H + 1)
  omega

/-- Settles O52: the loop ends at the first index out of bounds, which any bound from `mapperFuel` on reaches, and every
index before it passed the test. -/
theorem mapperSequenceIsCompleteAndInBounds : Obligations.MapperSequenceIsCompleteAndInBounds := by
  intro W H b extra hb
  obtain ⟨n, hn, hin, hout⟩ := exists_first_out (W := W) (H := H) hb
  have hidx := mapperIdx_eq_map hin hout hn
  refine ⟨?_, fun i hi => ?_⟩
  · have h := mapperIdxFrom_eq_map (W := W) (H := H) (b := b) (L := W * H) (fuel := mapperFuel H + extra) 0
      (by simpa using hin) (by simpa using hout) (by omega)
    rw [hidx]
    simpa only [Nat.zero_mod, Nat.zero_div, Nat.zero_add] using h
  · rw [hidx] at hi
    obtain ⟨j, hj, rfl⟩ := List.mem_map.mp hi
    obtain ⟨hlo, hhi⟩ := hin j (List.mem_range.mp hj)
    omega

/-- The index list at `k`, up to its length: the index after `k` advances, as long as that is in bounds. -/
theorem mapperIdx_getElem? {W H b k : Nat} (hb : b ≤ 1) (hk : k ≤ (mapperIdx W H (W * H) b).length) :
    (mapperIdx W H (W * H) b)[k]? =
      if InBounds (W * H) (cursorIndex W H b k) then some (cursorIndex W H b k).toNat else none := by
  obtain ⟨n, hn, hin, hout⟩ := exists_first_out (W := W) (H := H) hb
  rw [mapperIdx_eq_map hin hout hn] at hk ⊢
  rw [List.length_map, List.length_range] at hk
  rcases Nat.lt_or_eq_of_le hk with hlt | rfl
  · simp [if_pos (hin k hlt), hlt]
  · simp [if_neg hout]

/-! The square cases (R109, R110). -/

theorem lt_mapperFuel {n k : Nat} (hk : k ≤ n * n) : k < mapperFuel n := by
  have hfuel : mapperFuel n = n * n + (3 * n + 2) := by unfold mapperFuel; ring
  omega

/-- Settles O49: below n² every position of the cursor lies in the target and its index in the buffer; the position
after the last row has index −1. -/
theorem squareMapperSequenceClosedForm : Obligations.SquareMapperSequenceClosedForm := by
  intro n
  have hvalue : ∀ k < n * n, InBounds (n * n) (cursorIndex n n 1 k) ∧
      (cursorIndex n n 1 k).toNat = n * (k % n) + n - 1 - k / n := by
    intro k hk
    have hn : 0 < n := Nat.pos_of_ne_zero (by rintro rfl; simp at hk)
    have hrow : k / n < n := Nat.div_lt_of_lt_mul hk
    have hcol : n * (k % n + 1) ≤ n * n := Nat.mul_le_mul_left n (Nat.mod_lt k hn)
    rw [Nat.mul_add] at hcol
    rw [cursorIndex, mapIndex, ← Nat.cast_mul, Nat.mul_comm (k % n) n]
    generalize k / n = row at *
    generalize n * (k % n) = first at *
    exact ⟨⟨by omega, by omega⟩, by omega⟩
  have hout : ¬ InBounds (n * n) (cursorIndex n n 1 (n * n)) := by
    rintro ⟨hlo, hhi⟩
    rcases Nat.eq_zero_or_pos n with rfl | hn
    · simp [cursorIndex, mapIndex] at hlo
    · rw [cursorIndex, Nat.mul_mod_right, Nat.mul_div_cancel_left _ hn, mapIndex] at hlo
      omega
  rw [mapperIdx_eq_map (fun k hk => (hvalue k hk).1) hout (lt_mapperFuel le_rfl)]
  exact List.map_congr_left fun k hk => (hvalue k (List.mem_range.mp hk)).2

/-- Settles O50: column and row of the position are the quotient and, mirrored, the remainder of the index, so no index
comes twice. -/
theorem squareMapperVisitsEveryAddressOnce : Obligations.SquareMapperVisitsEveryAddressOnce := by
  intro n
  have hbound : ∀ i ∈ mapperIdx n n (n * n) 1, i < n * n := (mapperSequenceIsCompleteAndInBounds n n 1 0 le_rfl).2
  rw [squareMapperSequenceClosedForm n] at hbound ⊢
  have hdigits : ∀ k < n * n, k / n < n ∧ (n * (k % n) + n - 1 - k / n) / n = k % n ∧
      (n * (k % n) + n - 1 - k / n) % n = n - 1 - k / n := by
    intro k hk
    have hrow : k / n < n := Nat.div_lt_of_lt_mul hk
    generalize k / n = row at *
    generalize k % n = col
    rw [show n * col + n - 1 - row = n - 1 - row + n * col by omega, Nat.add_mul_mod_self_left,
      Nat.add_mul_div_left _ _ (by omega), Nat.mod_eq_of_lt (by omega), Nat.div_eq_of_lt (by omega), Nat.zero_add]
    exact ⟨hrow, rfl, rfl⟩
  have hnodup : ((List.range (n * n)).map fun k => n * (k % n) + n - 1 - k / n).Nodup := by
    refine List.nodup_range.map_on fun k hk k' hk' heq => ?_
    obtain ⟨hrow, hdiv, hmod⟩ := hdigits k (List.mem_range.mp hk)
    obtain ⟨hrow', hdiv', hmod'⟩ := hdigits k' (List.mem_range.mp hk')
    rw [heq] at hdiv hmod
    have hcol : k % n = k' % n := hdiv.symm.trans hdiv'
    have hquot : k / n = k' / n := by omega
    rw [← Nat.div_add_mod k n, ← Nat.div_add_mod k' n, hcol, hquot]
  refine (List.subperm_of_subset hnodup fun i hi => ?_).perm_of_length_le (by simp)
  exact List.mem_range.mpr (hbound i hi)

/-- Settles O51: the first row is walked up to its last column, whose index is n² and ends the input. -/
theorem literalMapperSequenceClosedForm : Obligations.LiteralMapperSequenceClosedForm := by
  intro n
  have hvalue : ∀ k < n, cursorIndex n n 0 k = ((k + 1) * n : Nat) := by
    intro k hk
    rw [cursorIndex, Nat.mod_eq_of_lt hk, Nat.div_eq_of_lt hk, mapIndex]
    push_cast
    ring
  have hin : ∀ k < n - 1, InBounds (n * n) (cursorIndex n n 0 k) := by
    intro k hk
    rw [hvalue k (by omega)]
    exact ⟨by omega, by exact_mod_cast Nat.mul_lt_mul_of_pos_right (show k + 1 < n by omega) (by omega)⟩
  have hout : ¬ InBounds (n * n) (cursorIndex n n 0 (n - 1)) := by
    rintro ⟨hlo, hhi⟩
    rcases Nat.eq_zero_or_pos n with rfl | hn
    · simp [cursorIndex, mapIndex] at hhi
    · rw [hvalue (n - 1) (by omega), Nat.sub_add_cancel hn] at hhi
      exact absurd hhi (lt_irrefl _)
  have hle : n - 1 ≤ n * n := le_trans (Nat.sub_le n 1) (Nat.le_mul_self n)
  rw [mapperIdx_eq_map hin hout (lt_mapperFuel hle)]
  refine List.map_congr_left fun k hk => ?_
  rw [hvalue k (by have := List.mem_range.mp hk; omega), Int.toNat_natCast]

end Sys2Proof.Machine
end

section
/-! PROOFS. The mapper carries out the mapper sequence (R68, R108, R130): the index list of a running frame at the
cursor, and the mapper relation, kept by every step. -/

namespace Sys2Proof.Machine

theorem offsetB_le_one (s : State) : s.offsetB ≤ 1 := by
  unfold State.offsetB
  split <;> omega

/-! The index list of a running frame. -/

theorem frameIdx_of_preOk {s : State} (h : s.preOk = true) :
    s.frameIdx = mapperIdx s.width.toNat s.height.toNat (s.width.toNat * s.height.toNat) s.offsetB := by
  rw [State.frameIdx, of_decide_eq_true h]

/-- Every index the mapper reads lies below LEN (R112). -/
theorem lt_len_of_mem_frameIdx {s : State} (h : s.preOk = true) {i : Nat} (hi : i ∈ s.frameIdx) : i < s.len.toNat := by
  rw [frameIdx_of_preOk h] at hi
  rw [of_decide_eq_true h]
  exact (mapperSequenceIsCompleteAndInBounds _ _ _ 0 (offsetB_le_one s)).2 i hi

/-- The cursor inside the target stands at the position of as many advances as its count in target order. -/
theorem index_eq_cursorIndex {s : State} {k : Nat} (hx : s.curX.toNat < s.height.toNat)
    (hpos : s.curX.toNat + s.curY.toNat * s.height.toNat = k) :
    s.index = cursorIndex s.width.toNat s.height.toNat s.offsetB k := by
  rw [cursorIndex, ← hpos, Nat.add_mul_mod_self_right, Nat.add_mul_div_right _ _ (by omega), Nat.mod_eq_of_lt hx,
    Nat.div_eq_of_lt hx, Nat.zero_add]
  rfl

/-- The index list at the number of advances the cursor has made: the index at the cursor, or the end of the list. -/
theorem frameIdx_getElem?_cursor {s : State} {k : Nat} (hcursor : CursorInv s) (hm : s.mapperFrame = true)
    (hpos : s.curX.toNat + s.curY.toNat * s.height.toNat = k) (hk : k ≤ s.frameIdx.length) :
    s.frameIdx[k]? = if s.indexInBounds then some s.index.toNat else none := by
  obtain ⟨hpre, hxlt, -⟩ := hcursor.1 hm
  have hlen : s.len.toNat = s.width.toNat * s.height.toNat := of_decide_eq_true hpre
  rw [frameIdx_of_preOk hpre] at hk ⊢
  rw [mapperIdx_getElem? (offsetB_le_one s) hk, State.indexInBounds, hlen]
  rcases Nat.eq_zero_or_pos s.height.toNat with hzero | hpositive
  · have hnone : ∀ i : Int, ¬ InBounds (s.width.toNat * s.height.toNat) i := by
      rintro i ⟨hlo, hhi⟩
      rw [hzero] at hhi
      omega
    rw [if_neg (hnone _), if_neg (by simpa using hnone s.index)]
  · have hx : s.curX.toNat < s.height.toNat := by
      by_cases h0 : s.curX = 0
      · rwa [h0]
      · exact hxlt h0
    rw [index_eq_cursorIndex hx hpos]
    simp only [decide_eq_true_eq]

/-! The relation outside FETCH and in it. -/

theorem advances_of_ne_fetch {s : State} (hs : s.state ≠ .fetch) : s.advances = s.taken.length := by
  simp [State.advances, hs]

theorem advances_of_fetch {s : State} (hs : s.state = .fetch) : s.advances = s.taken.length + 1 := by
  simp [State.advances, hs]

/-- The samples taken are the bytes at the first indices of the list (R130). -/
abbrev TakenInv (s : State) : Prop := s.taken = (s.frameIdx.take s.taken.length).map (byteAt s.mem)

theorem mapperFrame_of {s : State} (hs : s.state.phase = .busy) (hsrc : s.cfgSrc = false) : s.mapperFrame = true := by
  simp [State.mapperFrame, State.busy, hs, hsrc]

theorem cfgSrc_of_mapperFrame {s : State} (h : s.mapperFrame = true) : s.cfgSrc = false := by
  simp only [State.mapperFrame, Bool.and_eq_true, Bool.not_eq_true'] at h
  exact h.2

theorem mapperInv_of_not_busy {s : State} (h : s.state.phase ≠ .busy) : MapperInv s := by
  intro hm
  simp [State.mapperFrame, State.busy, h] at hm

theorem mapperInv_of_stream {s : State} (h : s.cfgSrc = true) : MapperInv s := by
  intro hm
  simp [State.mapperFrame, h] at hm

/-- A move that neither reads nor takes a sample, outside FETCH, keeps the relation. -/
theorem MapperInv.of_sameMapper {s t : State} (h : MapperInv s) (hsame : SameMapper s t) (htaken : t.taken = s.taken)
    (heoi : t.eoi = s.eoi) (hmem : t.mem = s.mem) (hunstable : t.unstable = s.unstable)
    (hbusy : s.state.phase = .busy) (hs : s.state ≠ .fetch) (ht : t.state ≠ .fetch) : MapperInv t := by
  intro hm
  obtain ⟨-, hwidth, hheight, hlen, hcfg, hx, hy⟩ := hsame
  have hoffset : t.offsetB = s.offsetB := by rw [State.offsetB, State.cfgMaplit, hcfg]; rfl
  have hidx : t.frameIdx = s.frameIdx := by rw [State.frameIdx, hwidth, hheight, hlen, hoffset]; rfl
  have hsrc : t.cfgSrc = s.cfgSrc := by rw [State.cfgSrc, hcfg]; rfl
  have hm' : s.mapperFrame = true := mapperFrame_of hbusy (hsrc ▸ cfgSrc_of_mapperFrame hm)
  obtain ⟨hpos, hle, -, hend, hbytes⟩ := h hm'
  rw [advances_of_ne_fetch hs] at hpos hle
  rw [advances_of_ne_fetch ht]
  simp only [StableBuffer, hx, hy, hheight, hlen, htaken, hidx, heoi, hmem, hunstable]
  exact ⟨hpos, hle, fun h => absurd h ht, hend, hbytes⟩

/-! The steps of the mapper. -/

/-- The mapper step reads the next index and advances the cursor (R106, R107). -/
theorem MapperInv.mapperStep {s : State} (h : MapperInv s) (hreg : RegInv s) (hs : s.state = .run)
    (hsrc : s.cfgSrc = false) (hb : s.indexInBounds = true) : MapperInv (mapperStep s) := by
  intro _
  have hm : s.mapperFrame = true := mapperFrame_of (by rw [hs]; rfl) hsrc
  obtain ⟨hwidth, -, -, hcursor, -⟩ := (regInv_iff s).mp hreg
  obtain ⟨-, -, -, heoi, -⟩ := hreg.row hs
  obtain ⟨hxlt, -, hx, hy, haddr⟩ := mapperStep_spec s hwidth hcursor hm hb
  obtain ⟨hpos, hle, -, -, hbytes⟩ := h hm
  rw [advances_of_ne_fetch (by rw [hs]; exact nofun)] at hpos hle
  have hget : s.frameIdx[s.taken.length]? = some s.index.toNat := by
    rw [frameIdx_getElem?_cursor hcursor hm hpos hle, if_pos hb]
  rw [advances_of_fetch rfl]
  refine ⟨?_, (List.getElem?_eq_some_iff.mp hget).1, fun _ => ?_, fun he => absurd (heoi.symm.trans he) nofun, hbytes⟩
  · rw [hx, hy]
    show _ = s.taken.length + 1
    rw [← hpos]
    exact (advance_position hxlt).1
  · rw [haddr]
    exact hget

/-- A read of an address that is not unstable brings the byte of the memory and takes no draw. -/
theorem memRdata_of_stable {s : State} (h : s.isUnstable s.readAddr.toNat = false) :
    s.memRdata = byteAt s.mem s.readAddr.toNat ∧ s.drawsAfterRead = s.draws := by
  simp [State.memRdata, State.drawsAfterRead, h]

/-- FETCH takes the byte of the read in flight (R156), over a stable buffer the byte of the memory. -/
theorem MapperInv.fetch {s : State} (h : MapperInv s) (hreg : RegInv s) (hs : s.state = .fetch) :
    MapperInv (acceptSample s.memRdata { s with draws := s.drawsAfterRead }) := by
  obtain ⟨-, -, -, heoi, hsrc, -⟩ := hreg.row hs
  have hm : s.mapperFrame = true := mapperFrame_of (by rw [hs]; rfl) hsrc
  have hpre := hreg.preOk hm
  obtain ⟨hpos, hle, hread, -, hbytes⟩ := h hm
  have hget := hread hs
  rw [advances_of_fetch hs] at hpos hle
  intro _
  rw [advances_of_ne_fetch (by rw [acceptSample_state]; split <;> exact nofun), acceptSample_taken, List.length_append,
    List.length_singleton]
  refine ⟨hpos, hle, fun hf => ?_, fun he => absurd (heoi.symm.trans he) nofun, fun hstable => ?_⟩
  · rw [acceptSample_state] at hf
    split at hf <;> cases hf
  · have hlt : s.readAddr.toNat < s.len.toNat := lt_len_of_mem_frameIdx hpre (List.mem_of_getElem? hget)
    have hbyte : s.memRdata = byteAt s.mem s.readAddr.toNat := by
      have hnot : s.isUnstable s.readAddr.toNat = false := by
        rw [Bool.eq_false_iff]
        intro hu
        exact absurd (hstable _ (by simpa [State.isUnstable] using hu)) (not_le.mpr hlt)
      exact (memRdata_of_stable hnot).1
    show s.taken ++ [s.memRdata] = (s.frameIdx.take (s.taken.length + 1)).map (byteAt s.mem)
    rw [List.take_add_one, hget, List.map_append, ← hbytes hstable, hbyte]
    rfl

/-- In mapper mode the input ends where the index list ends (R154, R157). -/
theorem MapperInv.endOfInput {s : State} (h : MapperInv s) (hreg : RegInv s) (hs : s.state = .run)
    (hb : s.indexInBounds = false) : MapperInv (endOfInput s) := by
  intro hm'
  have hcfg : (Machine.endOfInput s).cfg = s.cfg ∧ (Machine.endOfInput s).state ≠ .fetch := by
    rcases endOfInput_cases s with ⟨-, -, heq⟩ | ⟨-, heq⟩ <;> rw [heq] <;> exact ⟨rfl, nofun⟩
  have hsrc : s.cfgSrc = false := by
    have hsrc' := cfgSrc_of_mapperFrame hm'
    rwa [State.cfgSrc, hcfg.1] at hsrc'
  have hm : s.mapperFrame = true := mapperFrame_of (by rw [hs]; rfl) hsrc
  obtain ⟨hpos, hle, -, -, hbytes⟩ := h hm
  rw [advances_of_ne_fetch (by rw [hs]; exact nofun)] at hpos hle
  have hlast : s.taken.length = s.frameIdx.length := by
    have hget := frameIdx_getElem?_cursor hreg.cursor hm hpos hle
    rw [hb] at hget
    exact le_antisymm hle (List.getElem?_eq_none_iff.mp hget)
  rw [advances_of_ne_fetch hcfg.2]
  rcases endOfInput_cases s with ⟨-, -, heq⟩ | ⟨-, heq⟩ <;> rw [heq] <;>
    exact ⟨hpos, hle, nofun, fun _ => hlast, hbytes⟩

/-- The own action of every state keeps the mapper relation. -/
theorem MapperInv.ownStep {s : State} (h : MapperInv s) (hreg : RegInv s) : MapperInv (ownStep s) := by
  have hmove : ∀ {q t}, s.state = q → q.phase = .busy → q ≠ .fetch → t.state ≠ .fetch → SameMapper s t →
      t.taken = s.taken → t.eoi = s.eoi → t.mem = s.mem → t.unstable = s.unstable → MapperInv t :=
    fun hs hq hne ht hsame htaken heoi hmem hunstable =>
      h.of_sameMapper hsame htaken heoi hmem hunstable (hs ▸ hq) (hs ▸ hne) ht
  have hresume : s.resume ≠ .fetch := by rcases resume_eq s with hq | hq <;> rw [hq] <;> exact nofun
  have hsame : SameMapper s s := ⟨rfl, rfl, rfl, rfl, rfl, rfl, rfl⟩
  refine ownStep_cases h (fun hs _ => ?_) (fun hs _ => ?_) (h.mapperStep hreg) (fun hs _ => h.endOfInput hreg hs)
    (h.fetch hreg) (fun hs _ => ?_) (fun hs _ => ?_) (fun hs _ => ?_) (fun hs _ => ?_) (fun hs _ => ?_)
    (fun _ _ => mapperInv_of_not_busy nofun)
  · refine hmove hs rfl nofun ?_ hsame rfl rfl rfl rfl
    rw [emitEvent_state]
    split <;> exact nofun
  · exact hmove hs rfl nofun nofun hsame rfl rfl rfl rfl
  · refine hmove hs rfl nofun ?_ hsame rfl rfl rfl rfl
    rw [emitEvent_state]
    split
    · exact nofun
    · exact hresume
  · exact hmove hs rfl nofun nofun hsame rfl rfl rfl rfl
  · exact hmove hs rfl nofun nofun hsame rfl rfl rfl rfl
  · exact hmove hs rfl nofun (by simp [hs]) hsame rfl rfl rfl rfl
  · exact hmove hs rfl nofun hresume hsame rfl rfl rfl rfl

/-! START, reset and the host's writes. -/

theorem mapperInv_startFrame (s : State) : MapperInv (startFrame s) := by
  unfold startFrame
  split
  · exact mapperInv_of_not_busy nofun
  · exact fun _ => ⟨by simp [State.advances], Nat.zero_le _, nofun, nofun, fun _ => rfl⟩

theorem MapperInv.effect {s r : State} (h : MapperInv s) (hreg : RegInv s) (hr : CycleEffect s r) : MapperInv r := by
  cases hr with
  | reset => exact mapperInv_of_not_busy nofun
  | ownError => exact mapperInv_of_not_busy nofun
  | commandError => exact mapperInv_of_not_busy nofun
  | own => exact h.ownStep hreg
  | act i _ _ _ hact hn =>
    have hidle : ∀ {t : State}, s.state = .idle → t.state = s.state → MapperInv t := fun hs ht =>
      mapperInv_of_not_busy (by rw [ht, hs]; exact nofun)
    refine commandAct_cases hact hn (fun _ hs => hidle hs rfl) (fun _ hs => hidle hs rfl) (fun _ hs => hidle hs rfl)
      (fun _ hs => hidle hs rfl) (fun _ _ => mapperInv_startFrame s) (fun _ _ hsrc => mapperInv_of_stream hsrc)
      (fun _ hsrc => ?_) (fun _ => mapperInv_of_not_busy nofun)
    rcases endOfInput_cases s with ⟨-, -, heq⟩ | ⟨-, heq⟩ <;> rw [heq] <;> exact mapperInv_of_stream hsrc

/-- A write the frame forbids leaves the buffer unstable (R69); so over a buffer that is stable after the write, it was
stable before, and no byte below LEN has changed. -/
theorem stableBuffer_of_hostWrite {s : State} {c : Host.Cell} (hm : s.mapperFrame = true)
    (h : StableBuffer (hostWrite s c)) :
    StableBuffer s ∧ ∀ a < s.len.toNat, byteAt (hostWrite s c).mem a = byteAt s.mem a := by
  have hc : s.len.toNat ≤ c.1 := by
    by_contra hlt
    have hbreaks : s.breaksStability c.1 = true := by simpa [State.breaksStability, hm] using hlt
    exact hlt (h c.1 (by simp [hbreaks]))
  refine ⟨fun a ha => ?_, fun a ha => ?_⟩
  · by_cases hac : a = c.1
    · rwa [hac]
    · refine h a ?_
      rw [hostWrite_unstable]
      split
      · exact (AddrSet.mem_insert _ _ _).mpr (.inr ha)
      · exact (AddrSet.mem_erase _ _ _).mpr ⟨ha, hac⟩
  · rw [byteAt, hostWrite_mem, Memory.read_write_other _ _ _ _ (by omega)]
    rfl

theorem stableBuffer_of_hostWrites {s : State} {cs : List Host.Cell} (hm : s.mapperFrame = true)
    (h : StableBuffer (hostWrites s cs)) :
    StableBuffer s ∧ ∀ a < s.len.toNat, byteAt (hostWrites s cs).mem a = byteAt s.mem a := by
  induction cs generalizing s with
  | nil => exact ⟨h, fun _ _ => rfl⟩
  | cons c cs ih =>
    obtain ⟨hmid, hbytes⟩ := ih (s := hostWrite s c) hm h
    obtain ⟨hstable, hbyte⟩ := stableBuffer_of_hostWrite hm hmid
    exact ⟨hstable, fun a ha => (hbytes a ha).trans (hbyte a ha)⟩

theorem MapperInv.afterWrites {s : State} (h : MapperInv s) (hreg : RegInv s) : MapperInv s.afterWrites := by
  have hwrites := stableBuffer_of_hostWrites (s := s) (cs := s.pins.memWrites)
  change _ → StableBuffer s.afterWrites → _ ∧ ∀ a < _, byteAt s.afterWrites.mem a = _ at hwrites
  obtain ⟨m, u, heq⟩ := exists_afterWrites_eq s
  rw [heq] at hwrites ⊢
  intro hm
  obtain ⟨hpos, hle, hread, hend, hbytes⟩ := h hm
  refine ⟨hpos, hle, hread, hend, fun hstable => ?_⟩
  obtain ⟨hstable', hsame⟩ := hwrites hm hstable
  have hpre := hreg.preOk hm
  refine (hbytes hstable').trans (List.map_congr_left fun a ha => (hsame a ?_).symm)
  exact lt_len_of_mem_frameIdx hpre (List.mem_of_mem_take ha)

/-- Settles O59: the host's writes and every effect of a cycle keep the relation, each under the register invariants. -/
theorem stepKeepsTheMapperRelation : Obligations.StepKeepsTheMapperRelation := by
  intro s t hreg hmapper hstep
  obtain ⟨r, hr, rfl⟩ := exists_effect_of_step hstep
  have hr' : MapperInv r := (hmapper.afterWrites hreg).effect hreg.afterWrites hr
  exact hr'

end Sys2Proof.Machine
end

section
/-! PROOFS. What no step does (R13, R36, R38, R113, R151, R205 to R210): safety of the whole machine, read off the
effects of a cycle. -/

namespace Sys2Proof.Machine

/-- A step is one effect on the state with the host's writes in memory, and then the next cycle's pins come up. -/
theorem exists_effect_over_writes {s t : State} (h : step s = .next t) :
    ∃ m u r, CycleEffect { s with mem := m, unstable := u } r ∧ t = endCycle r := by
  obtain ⟨r, hr, ht⟩ := exists_effect_of_step h
  obtain ⟨m, u, heq⟩ := exists_afterWrites_eq s
  exact ⟨m, u, r, heq ▸ hr, ht⟩

/-! The sample memory (R13, R61). -/

theorem endOfInput_memory (s : State) : (endOfInput s).mem = s.mem ∧ (endOfInput s).unstable = s.unstable := by
  rcases endOfInput_cases s with ⟨-, -, heq⟩ | ⟨-, heq⟩ <;> rw [heq] <;> exact ⟨rfl, rfl⟩

theorem startFrame_memory (s : State) : (startFrame s).mem = s.mem ∧ (startFrame s).unstable = s.unstable := by
  unfold startFrame
  split <;> exact ⟨rfl, rfl⟩

theorem commandAct_memory (i : Instr) (s : State) :
    (commandAct i s).mem = s.mem ∧ (commandAct i s).unstable = s.unstable := by
  cases i with
  | start => exact startFrame_memory s
  | endInput => exact endOfInput_memory s
  | _ => exact ⟨rfl, rfl⟩

theorem ownStep_memory (s : State) : (ownStep s).mem = s.mem ∧ (ownStep s).unstable = s.unstable := by
  obtain ⟨-, -, -, -, -, -, -, hmem, hunstable, -⟩ := ownStep_frame s
  exact ⟨hmem, hunstable⟩

theorem CycleEffect.memory {s r : State} (h : CycleEffect s r) : r.mem = s.mem ∧ r.unstable = s.unstable := by
  cases h with
  | reset => exact ⟨rfl, rfl⟩
  | ownError => exact ⟨rfl, rfl⟩
  | own => exact ownStep_memory s
  | act i => exact commandAct_memory i s
  | commandError => exact ownStep_memory s

/-- Settles O43: a command's cycle is its own action and its pseudocode, which write no memory; a step has the host's
writes besides. -/
theorem nothingButTheHostWritesTheSampleMemory : Obligations.NothingButTheHostWritesTheSampleMemory := by
  refine ⟨fun i s t h => ?_, fun s t a h ha => ?_⟩
  · rw [exec_eq_next] at h
    obtain rfl := Host.Outcome.next.inj h
    obtain ⟨hmem, hunstable⟩ := ownStep_memory s
    rcases commandCycle_cases i.opcode (commandAct i) s with
      ⟨c, -, heq⟩ | ⟨-, ⟨-, heq⟩ | ⟨c, -, heq⟩ | ⟨-, heq⟩⟩ <;> rw [heq]
    · exact ⟨rfl, rfl⟩
    · obtain ⟨hmem', hunstable'⟩ := commandAct_memory i (ownStep s)
      exact ⟨hmem'.trans hmem, hunstable'.trans hunstable⟩
    · exact ⟨hmem, hunstable⟩
    · exact ⟨hmem, hunstable⟩
  · obtain ⟨r, hr, rfl⟩ := exists_effect_of_step h
    rw [endCycle_mem, hr.memory.1]
    exact hostWrites_read_other s _ a ha

/-- Settles O57: the host's writes keep the canonical form, and no effect of a cycle writes memory. -/
theorem stepKeepsTheMemoryCanonical : Obligations.StepKeepsTheMemoryCanonical := by
  intro s t ⟨hmem, hunstable⟩ h
  obtain ⟨r, hr, rfl⟩ := exists_effect_of_step h
  obtain ⟨hmem', hunstable'⟩ := hr.memory
  rw [MemInv, endCycle_mem, endCycle_unstable, hmem', hunstable']
  exact hostWrites_wf s _ hmem hunstable

/-! ERROR is entered with a cause and left by reset and CLEAR (R201 to R210). -/

theorem CycleInput.txErr_of_writeAnswer {p : CycleInput} (h : p.writeAnswer = .fail) : p.txErr = true := by
  by_contra hne
  rw [Bool.not_eq_true] at hne
  cases hready : p.txReady <;> simp [CycleInput.writeAnswer, hne, hready] at h

theorem CycleInput.flErr_of_flushAnswer {p : CycleInput} (h : p.flushAnswer = .fail) : p.flErr = true := by
  by_contra hne
  rw [Bool.not_eq_true] at hne
  cases hdone : p.flDone <;> simp [CycleInput.flushAnswer, hne, hdone] at h

theorem CycleInput.flDone_of_flushAnswer {p : CycleInput} (h : p.flushAnswer = .ok) :
    p.flErr = false ∧ p.flDone = true := by
  cases herr : p.flErr <;> cases hdone : p.flDone <;> simp_all [CycleInput.flushAnswer]

/-- No state's own action enters ERROR: a failure is raised instead of it. -/
theorem ownStep_state_ne_error {s : State} (hs : s.state ≠ .error) : (ownStep s).state ≠ .error := by
  by_cases hbusy : s.state.phase = .busy
  · rcases ownStep_busy_or_completes hbusy with ⟨hbusy', -⟩ | ⟨-, -, heq⟩
    · exact ((SeqState.phase_eq_busy_iff _).mp hbusy').2
    · rw [heq]
      exact nofun
  · rwa [ownStep_of_not_busy s hbusy]

theorem startFrame_of_error {s : State} (h : (startFrame s).state = .error) :
    s.cfgSrc = false ∧ s.preOk = false ∧ startFrame s = raiseError .precond s.state (clearFrame s) := by
  unfold startFrame at h ⊢
  split at h
  · next hfail =>
    simp only [Bool.and_eq_true, Bool.not_eq_true'] at hfail
    simp [hfail]
  · cases h

/-- The record of an error and its cause (R201, R205, R206). -/
abbrev ErrorCause (s r : State) : Prop :=
  (r.err = .txIo ∧ (s.state = .pre ∨ s.state = .emit ∨ s.state = .pad) ∧ s.pins.txErr = true) ∨
    (r.err = .flushIo ∧ (s.state = .preFl ∨ s.state = .blkFl ∨ s.state = .endFl) ∧ s.pins.flErr = true) ∨
    (r.err = .precond ∧ s.state = .idle ∧ s.pins.cmdValid = true ∧ decode s.pins.cmdWord = .start ∧
      s.cfgSrc = false ∧ s.len.toNat ≠ s.width.toNat * s.height.toNat) ∨
    (r.err = .illegalCmd ∧ s.pins.cmdValid = true ∧ (decode s.pins.cmdWord).opcode = .reserved) ∨
    (r.err = .cmdState ∧ s.pins.cmdValid = true ∧
      verdict (decode s.pins.cmdWord).opcode s.state s.cfgSrc = .error .cmdState)

/-- Of the commands that act, START alone can enter ERROR (R202). -/
theorem commandAct_enters_error {i : Instr} {s : State} (hact : verdict i.opcode s.state s.cfgSrc = .act)
    (hn : i.opcode ≠ .nop) (hs : s.state ≠ .error) :
    (commandAct i s).state = .error → i = .start ∧ s.state = .idle ∧ s.cfgSrc = false ∧ s.preOk = false ∧
      commandAct i s = raiseError .precond s.state (clearFrame s) := by
  refine commandAct_cases (P := fun t => t.state = .error → i = .start ∧ s.state = .idle ∧ s.cfgSrc = false ∧
    s.preOk = false ∧ t = raiseError .precond s.state (clearFrame s)) hact hn (fun _ _ he => absurd he hs)
    (fun _ _ he => absurd he hs) (fun _ _ he => absurd he hs) (fun _ _ he => absurd he hs) (fun hi hidle he => ?_)
    (fun b hrun _ he => ?_) (fun hrun _ he => ?_) (fun _ => nofun)
  · obtain ⟨hsrc, hpre, heq⟩ := startFrame_of_error he
    exact ⟨hi, hidle, hsrc, hpre, heq⟩
  · rw [acceptSample_state] at he
    split at he <;> cases he
  · rcases endOfInput_cases s with ⟨-, -, heq⟩ | ⟨-, heq⟩ <;> rw [heq] at he <;> cases he

theorem CycleEffect.error_cause {s r : State} (h : CycleEffect s r) (hs : s.state ≠ .error) (hr : r.state = .error) :
    r.errState = s.state ∧ r.done = false ∧ ErrorCause s r := by
  cases h with
  | reset => cases hr
  | own => exact absurd hr (ownStep_state_ne_error hs)
  | ownError c _ ho =>
    refine ⟨rfl, rfl, ?_⟩
    rcases (ownError_eq_some s c).mp ho with ⟨hoffers, hfail, rfl⟩ | ⟨hrequests, hfail, rfl⟩
    · exact .inl ⟨rfl, (SeqState.offersByte_eq_true_iff _).mp hoffers, CycleInput.txErr_of_writeAnswer hfail⟩
    · exact .inr (.inl ⟨rfl, (SeqState.requestsFlush_eq_true_iff _).mp hrequests, CycleInput.flErr_of_flushAnswer hfail⟩)
  | act i _ hv hi hact hn =>
    obtain ⟨rfl, hidle, hsrc, hpre, heq⟩ := commandAct_enters_error hact hn hs hr
    rw [heq]
    exact ⟨rfl, rfl, .inr (.inr (.inl ⟨rfl, hidle, hv, hi, hsrc, of_decide_eq_false hpre⟩))⟩
  | commandError i c _ hv hi _ herr =>
    refine ⟨rfl, rfl, .inr (.inr (.inr ?_))⟩
    rcases (verdict_eq_error _ _ _ _ herr).2 with rfl | ⟨rfl, hop⟩
    · exact .inr ⟨rfl, hv, hi ▸ herr⟩
    · exact .inl ⟨rfl, hv, hi ▸ hop⟩

/-- Settles O35: the effects that enter ERROR are an own error, a command's error and a refused START. -/
theorem everyErrorHasItsCauseAndRecord : Obligations.EveryErrorHasItsCauseAndRecord := by
  intro s t h hs ht
  obtain ⟨m, u, r, hr, rfl⟩ := exists_effect_over_writes h
  exact hr.error_cause hs ht

theorem Instr.eq_clear_of_opcode {i : Instr} (h : i.opcode = .clear) : i = .clear := by
  cases i with
  | clear => rfl
  | _ => simp [Instr.opcode] at h

/-- In ERROR every effect but reset and CLEAR leaves the state as it is (R209). -/
theorem CycleEffect.eq_of_error {s r : State} (h : CycleEffect s r) (hs : s.state = .error) (hrst : s.pins.rst = false)
    (hclear : s.pins.cmdValid = true → decode s.pins.cmdWord ≠ .clear) : r = s := by
  have hidle : s.state.phase ≠ .busy := SeqState.phase_ne_busy (.inr hs)
  cases h with
  | reset hr => exact absurd (hrst.symm.trans hr) nofun
  | ownError c _ ho => exact absurd ((ownError_none_of_not_busy s hidle).symm.trans ho) nofun
  | own => exact ownStep_of_not_busy s hidle
  | act i _ hv hi hact hn =>
    refine absurd (hi.trans (Instr.eq_clear_of_opcode ?_)) (hclear hv)
    simpa [verdict_eq_act, hs, hn] using hact
  | commandError i c _ _ _ _ herr => exact absurd hs (verdict_eq_error _ _ _ _ herr).1

/-- Settles O36: ERROR keeps everything but what the host writes to the memory. -/
theorem onlyResetOrClearLeavesError : Obligations.OnlyResetOrClearLeavesError := by
  intro s t h hs hrst hclear
  obtain ⟨r, hr, rfl⟩ := exists_effect_of_step h
  obtain ⟨m, u, heq⟩ := exists_afterWrites_eq s
  rw [heq] at hr ⊢
  obtain rfl := hr.eq_of_error hs hrst hclear
  exact ⟨rfl, hs, rfl, rfl, rfl⟩

/-! IDLE (R151). -/

theorem CycleEffect.leaves_idle {s r : State} (h : CycleEffect s r) (hs : s.state = .idle) (hr : r.state ≠ .idle) :
    s.pins.rst = false ∧ s.pins.cmdValid = true ∧
      ((decode s.pins.cmdWord = .start ∧ (r.state = .pre ∨ r.err = .precond)) ∨
       (r.state = .error ∧ (r.err = .cmdState ∨ r.err = .illegalCmd))) := by
  have hidle : s.state.phase ≠ .busy := SeqState.phase_ne_busy (.inl hs)
  cases h with
  | reset => exact absurd rfl hr
  | ownError c _ ho => exact absurd ((ownError_none_of_not_busy s hidle).symm.trans ho) nofun
  | own => exact absurd (by rw [ownStep_of_not_busy s hidle, hs]) hr
  | act i hrst hv hi hact hn =>
    refine ⟨hrst, hv, .inl ?_⟩
    revert hr
    refine commandAct_cases (P := fun t => t.state ≠ .idle → decode s.pins.cmdWord = .start ∧
      (t.state = .pre ∨ t.err = .precond)) hact hn (fun _ _ hne => absurd hs hne) (fun _ _ hne => absurd hs hne)
      (fun _ _ hne => absurd hs hne) (fun _ _ hne => absurd hs hne) (fun hstart _ _ => ⟨hi.trans hstart, ?_⟩)
      (fun _ hrun => absurd (hs.symm.trans hrun) nofun) (fun hrun => absurd (hs.symm.trans hrun) nofun)
      (fun _ hne => absurd rfl hne)
    unfold startFrame
    split
    · exact .inr rfl
    · exact .inl rfl
  | commandError i c hrst hv _ _ herr =>
    refine ⟨hrst, hv, .inr ⟨rfl, ?_⟩⟩
    exact (verdict_eq_error _ _ _ _ herr).2.imp id And.left

/-- Settles O37: IDLE has no own action, and of the commands that act in it START alone leaves it. -/
theorem idleIsLeftOnlyByStartOrAnError : Obligations.IdleIsLeftOnlyByStartOrAnError := by
  intro s t h hs ht
  obtain ⟨m, u, r, hr, rfl⟩ := exists_effect_over_writes h
  exact hr.leaves_idle hs ht

/-! A running frame: configuration, cursor and DONE. -/

/-- In a busy state the only commands that act are SAMPLE and END in RUN in stream mode (R171). -/
theorem commandAct_of_busy {P : State → Prop} {i : Instr} {s : State} (hbusy : s.state.phase = .busy)
    (hact : verdict i.opcode s.state s.cfgSrc = .act) (hn : i.opcode ≠ .nop)
    (hsample : ∀ b, s.state = .run → s.cfgSrc = true → P (acceptSample b s))
    (hend : s.state = .run → s.cfgSrc = true → P (endOfInput s)) : P (commandAct i s) := by
  obtain ⟨hidle, herror⟩ := (SeqState.phase_eq_busy_iff _).mp hbusy
  exact commandAct_cases hact hn (fun _ hs => absurd hs hidle) (fun _ hs => absurd hs hidle) (fun _ hs => absurd hs hidle)
    (fun _ hs => absurd hs hidle) (fun _ hs => absurd hs hidle) hsample hend
    (fun hs => hs.elim (fun hs => absurd hs hidle) fun hs => absurd hs herror)

/-- A property of a running frame that an error keeps holds after every effect without reset, if it holds after the own
action and after SAMPLE and END. -/
theorem CycleEffect.of_busy {P : State → Prop} {s r : State} (h : CycleEffect s r) (hbusy : s.state.phase = .busy)
    (hrst : s.pins.rst = false) (hraise : ∀ {t} (c : ErrCode), P t → P (raiseError c s.state t)) (hstay : P s)
    (hown : P (ownStep s)) (hsample : ∀ b, s.state = .run → s.cfgSrc = true → P (acceptSample b s))
    (hend : s.state = .run → s.cfgSrc = true → P (endOfInput s)) : P r := by
  cases h with
  | reset hr => exact absurd (hrst.symm.trans hr) nofun
  | ownError c => exact hraise c hstay
  | own => exact hown
  | act i _ _ _ hact hn => exact commandAct_of_busy hbusy hact hn hsample hend
  | commandError i c => exact hraise c hown

/-- The configuration of two states is the same. -/
abbrev SameConfig (s t : State) : Prop :=
  t.width = s.width ∧ t.height = s.height ∧ t.len = s.len ∧ t.cfg = s.cfg ∧ t.params = s.params

/-- Settles O38: neither an own action nor SAMPLE, END or an error writes a configuration register. -/
theorem configurationIsFrozenDuringAFrame : Obligations.ConfigurationIsFrozenDuringAFrame := by
  intro s t h hbusy hrst
  obtain ⟨m, u, r, hr, rfl⟩ := exists_effect_over_writes h
  refine hr.of_busy (P := SameConfig s) hbusy hrst (fun _ ht => ht) ⟨rfl, rfl, rfl, rfl, rfl⟩ ?_
    (fun _ _ _ => ⟨rfl, rfl, rfl, rfl, rfl⟩) (fun _ _ => ?_)
  · obtain ⟨hparams, hwidth, hheight, hlen, hcfg, -⟩ := ownStep_frame { s with mem := m, unstable := u }
    exact ⟨hwidth, hheight, hlen, hcfg, hparams⟩
  · rcases endOfInput_cases { s with mem := m, unstable := u } with ⟨-, -, heq⟩ | ⟨-, heq⟩ <;> rw [heq] <;>
      exact ⟨rfl, rfl, rfl, rfl, rfl⟩

/-- What sets DONE: the trailing flush (R36, R144). -/
theorem CycleEffect.sets_done {s r : State} (h : CycleEffect s r) (hs : s.done = false) (hr : r.done = true) :
    s.state = .endFl ∧ s.pins.flushAnswer = .ok ∧ r = emitEvent .flush { s with done := true, state := .idle } := by
  cases h with
  | reset => cases hr
  | ownError => cases hr
  | commandError => cases hr
  | own =>
    by_cases hbusy : s.state.phase = .busy
    · refine (ownStep_busy_or_completes hbusy).resolve_left fun hkeep => ?_
      exact absurd (hs.symm.trans (hkeep.2.symm.trans hr)) nofun
    · rw [ownStep_of_not_busy s hbusy] at hr
      exact absurd (hs.symm.trans hr) nofun
  | act i _ _ _ hact hn =>
    have hnot : ∀ {t : State}, t.done = s.done → t.done ≠ true := fun ht => by rw [ht, hs]; exact nofun
    refine absurd hr (commandAct_cases (P := fun t => t.done ≠ true) hact hn (fun _ _ => hnot rfl) (fun _ _ => hnot rfl)
      (fun _ _ => hnot rfl) (fun _ _ => hnot rfl) (fun _ _ => ?_) (fun _ _ _ => hnot rfl) (fun _ _ => ?_) (fun _ => nofun))
    · unfold startFrame
      split <;> exact nofun
    · rcases endOfInput_cases s with ⟨-, -, heq⟩ | ⟨-, heq⟩ <;> rw [heq] <;> exact hnot rfl

/-- Settles O39: the one effect that sets DONE is END_FL's own action on the answer ok. -/
theorem doneRisesOnlyWithTheTrailingFlush : Obligations.DoneRisesOnlyWithTheTrailingFlush := by
  intro s t h hs ht
  obtain ⟨m, u, r, hr, rfl⟩ := exists_effect_over_writes h
  obtain ⟨hend, hok, rfl⟩ := hr.sets_done hs ht
  obtain ⟨herr, hdone⟩ := CycleInput.flDone_of_flushAnswer hok
  exact ⟨hend, herr, hdone, rfl, rfl⟩

/-- The cursor stays, or a mapper step moves it one position forward in target order (R113). -/
abbrev CursorMove (s t : State) : Prop :=
  (t.curX = s.curX ∧ t.curY = s.curY) ∨
    (s.state = .run ∧ s.cfgSrc = false ∧
      t.curX.toNat + t.curY.toNat * s.height.toNat = s.curX.toNat + s.curY.toNat * s.height.toNat + 1 ∧
      t.curX.toNat < s.height.toNat)

theorem cursorMove_mapperStep {s : State} (hreg : RegInv s) (hs : s.state = .run) (hsrc : s.cfgSrc = false)
    (hb : s.indexInBounds = true) : CursorMove s (mapperStep s) := by
  obtain ⟨hwidth, -, -, hcursor, -⟩ := (regInv_iff s).mp hreg
  obtain ⟨hxlt, -, hx, hy, -⟩ := mapperStep_spec s hwidth hcursor (mapperFrame_of (by rw [hs]; rfl) hsrc) hb
  refine .inr ⟨hs, hsrc, ?_⟩
  rw [hx, hy]
  exact advance_position hxlt

theorem endOfInput_cursor (s : State) :
    (endOfInput s).curX = s.curX ∧ (endOfInput s).curY = s.curY ∧ (endOfInput s).readAddr = s.readAddr ∧
      (endOfInput s).draws = s.draws := by
  rcases endOfInput_cases s with ⟨-, -, heq⟩ | ⟨-, heq⟩ <;> rw [heq] <;> exact ⟨rfl, rfl, rfl, rfl⟩

/-- Settles O40: of a running frame's effects the mapper step alone writes the cursor. -/
theorem cursorOnlyMovesForward : Obligations.CursorOnlyMovesForward := by
  intro s t hreg h hbusy hrst
  obtain ⟨m, u, r, hr, rfl⟩ := exists_effect_over_writes h
  have hstay : CursorMove s { s with mem := m, unstable := u } := .inl ⟨rfl, rfl⟩
  have hend : CursorMove s (endOfInput { s with mem := m, unstable := u }) := by
    obtain ⟨hx, hy, -⟩ := endOfInput_cursor { s with mem := m, unstable := u }
    exact .inl ⟨hx, hy⟩
  refine hr.of_busy (P := CursorMove s) hbusy hrst (fun _ ht => ht) hstay ?_ (fun _ _ _ => .inl ⟨rfl, rfl⟩)
    (fun _ _ => hend)
  refine ownStep_cases hstay (fun _ _ => .inl ⟨rfl, rfl⟩) (fun _ _ => .inl ⟨rfl, rfl⟩) (fun hs hsrc hb => ?_)
    (fun _ _ _ => hend) (fun _ => .inl ⟨rfl, rfl⟩) (fun _ _ => .inl ⟨rfl, rfl⟩) (fun _ _ => .inl ⟨rfl, rfl⟩)
    (fun _ _ => .inl ⟨rfl, rfl⟩) (fun _ _ => .inl ⟨rfl, rfl⟩) (fun _ _ => .inl ⟨rfl, rfl⟩) (fun _ _ => .inl ⟨rfl, rfl⟩)
  exact cursorMove_mapperStep (s := { s with mem := m, unstable := u }) hreg hs hsrc hb

end Sys2Proof.Machine
end

section
/-! PROOFS. What a step does not depend on (R24 to R26, R100): the pins of the coming cycle that no rule reads, and in
stream mode the mapper's registers. -/

namespace Sys2Proof.Machine

/-! A state beside another that differs in the input pins and in WIDTH, HEIGHT and LEN. -/

/-- The state with other input pins and other dimensions. -/
def State.beside (s : State) (l : List CycleInput) (w h : BitVec 14) (n : BitVec 28) : State :=
  { s with inputs := l, width := w, height := h, len := n }

/-- The state with other input pins. -/
abbrev State.withInputs (s : State) (l : List CycleInput) : State := s.beside l s.width s.height s.len

section
variable (s : State) (l : List CycleInput) (w h : BitVec 14) (n : BitVec 28)

/-- The dimensions of the other state are read in mapper mode alone, so they may differ in stream mode. -/
abbrev SameDimensions : Prop := s.cfgSrc = true ∨ (w = s.width ∧ h = s.height ∧ n = s.len)

/-- The other pins give the sink's answers that the state reads. -/
abbrev SameAnswers : Prop :=
  (s.state.offersByte = true → (l.headD {}).writeAnswer = s.pins.writeAnswer) ∧
    (s.state.requestsFlush = true → (l.headD {}).flushAnswer = s.pins.flushAnswer)

theorem endOfInput_beside : endOfInput (s.beside l w h n) = (endOfInput s).beside l w h n := by
  unfold endOfInput
  change (if s.cfgTail && decide (s.bitCnt ≠ 0) then _ else _) = _
  split <;> rfl

theorem startFrame_withInputs : startFrame (s.withInputs l) = (startFrame s).withInputs l := by
  unfold startFrame
  change (if !s.cfgSrc && !s.preOk then _ else _) = _
  split <;> rfl

theorem commandAct_withInputs (i : Instr) : commandAct i (s.withInputs l) = (commandAct i s).withInputs l := by
  cases i with
  | start => exact startFrame_withInputs s l
  | endInput =>
    refine (endOfInput_beside s l _ _ _).trans ?_
    rcases endOfInput_cases s with ⟨-, -, heq⟩ | ⟨-, heq⟩ <;> rw [commandAct, heq]
  | _ => rfl

variable {s l w h n}

/-- In stream mode no host write is forbidden (R69). -/
theorem breaksStability_of_stream (hsrc : s.cfgSrc = true) (a : Nat) : s.breaksStability a = false := by
  simp [State.breaksStability, State.mapperFrame, hsrc]

theorem hostWrite_beside (hd : SameDimensions s w h n) (c : Host.Cell) :
    hostWrite (s.beside l w h n) c = (hostWrite s c).beside l w h n := by
  rcases hd with hsrc | ⟨rfl, rfl, rfl⟩
  · unfold hostWrite
    rw [breaksStability_of_stream hsrc, breaksStability_of_stream (s := s.beside l w h n) hsrc]
    rfl
  · rfl

theorem hostWrites_beside (hd : SameDimensions s w h n) (cs : List Host.Cell) :
    hostWrites (s.beside l w h n) cs = (hostWrites s cs).beside l w h n := by
  induction cs generalizing s with
  | nil => rfl
  | cons c cs ih =>
    rw [hostWrites, hostWrite_beside hd]
    exact ih (s := hostWrite s c) hd

theorem ownError_beside (ha : SameAnswers s l) : ownError (s.beside l w h n) = ownError s := by
  obtain ⟨hwrite, hflush⟩ := ha
  unfold ownError
  change (if s.state.offersByte && decide ((l.headD {}).writeAnswer = .fail) then some ErrCode.txIo
    else if s.state.requestsFlush && decide ((l.headD {}).flushAnswer = .fail) then some ErrCode.flushIo else none) = _
  cases hb : s.state.offersByte <;> cases hf : s.state.requestsFlush <;> simp_all

theorem stepRun_beside (hd : SameDimensions s w h n) : stepRun (s.beside l w h n) = (stepRun s).beside l w h n := by
  unfold stepRun
  rcases hd with hsrc | ⟨rfl, rfl, rfl⟩
  · rw [if_pos hsrc, if_pos (show (s.beside l w h n).cfgSrc = true from hsrc)]
  · change (if s.cfgSrc then _ else if s.indexInBounds then _ else _) = _
    split
    · rfl
    · split
      · rfl
      · exact endOfInput_beside s l _ _ _

/-- The own action does not depend on pins and dimensions the state does not read. -/
theorem ownStep_beside (ha : SameAnswers s l) (hd : SameDimensions s w h n) :
    ownStep (s.beside l w h n) = (ownStep s).beside l w h n := by
  obtain ⟨hwrite, hflush⟩ := ha
  have hstate : (s.beside l w h n).state = s.state := rfl
  have hpins : (s.beside l w h n).pins = l.headD {} := rfl
  cases hs : s.state <;> rw [hs] at hwrite hflush <;> simp only [ownStep, hstate, hs]
  case run => exact stepRun_beside hd
  case fetch => rfl
  case pause =>
    unfold stepPause
    change (if s.pauseCnt = 1 then _ else _) = _
    split <;> rfl
  case pre => rw [stepPre, stepPre, hpins, hwrite rfl]; cases s.pins.writeAnswer <;> rfl
  case emit => rw [stepEmit, stepEmit, hpins, hwrite rfl]; cases s.pins.writeAnswer <;> rfl
  case pad => rw [stepPad, stepPad, hpins, hwrite rfl]; cases s.pins.writeAnswer <;> rfl
  case preFl => rw [stepPreFl, stepPreFl, hpins, hflush rfl]; cases s.pins.flushAnswer <;> rfl
  case blkFl => rw [stepBlkFl, stepBlkFl, hpins, hflush rfl]; cases s.pins.flushAnswer <;> rfl
  case endFl => rw [stepEndFl, stepEndFl, hpins, hflush rfl]; cases s.pins.flushAnswer <;> rfl

theorem ownCycle_beside (ha : SameAnswers s l) (hd : SameDimensions s w h n) :
    ownCycle (s.beside l w h n) = (ownCycle s).beside l w h n := by
  cases ho : ownError s with
  | some c =>
    rw [ownCycle_of_ownError_some ho, ownCycle_of_ownError_some ((ownError_beside ha).trans ho)]
    rfl
  | none => rw [ownCycle_of_ownError_none ho, ownCycle_of_ownError_none ((ownError_beside ha).trans ho), ownStep_beside ha hd]

/-- In stream mode a busy state's command does not depend on the dimensions, since it writes none (R171). -/
theorem commandCycle_beside {i : Instr} (hbusy : s.state.phase = .busy) (ha : SameAnswers s l)
    (hd : SameDimensions s w h n) :
    commandCycle i.opcode (commandAct i) (s.beside l w h n) = (commandCycle i.opcode (commandAct i) s).beside l w h n := by
  have hverdict : verdict i.opcode (s.beside l w h n).state (s.beside l w h n).cfgSrc = verdict i.opcode s.state s.cfgSrc :=
    rfl
  unfold commandCycle
  rw [ownError_beside ha, ownStep_beside ha hd, hverdict]
  cases ownError s with
  | some c => rfl
  | none =>
    cases hv : verdict i.opcode s.state s.cfgSrc with
    | act =>
      by_cases hn : i.opcode = .nop
      · obtain rfl := Instr.eq_nop_of_opcode hn
        rfl
      · rw [ownStep_of_act i s hv hn]
        obtain ⟨hidle, herror⟩ := (SeqState.phase_eq_busy_iff _).mp hbusy
        cases i with
        | sample b => rfl
        | endInput => exact endOfInput_beside s l w h n
        | _ => simp [verdict_eq_act, Instr.opcode, hidle, herror] at hv hn
    | _ => rfl

/-- With other pins alone, every command's cycle is the same. -/
theorem ownStep_withInputs (ha : SameAnswers s l) : ownStep (s.withInputs l) = (ownStep s).withInputs l := by
  obtain ⟨-, hwidth, hheight, hlen, -⟩ := ownStep_frame s
  rw [State.withInputs, State.withInputs, hwidth, hheight, hlen]
  exact ownStep_beside ha (.inr ⟨rfl, rfl, rfl⟩)

theorem ownCycle_withInputs (ha : SameAnswers s l) : ownCycle (s.withInputs l) = (ownCycle s).withInputs l := by
  unfold ownCycle
  rw [ownError_beside ha, ownStep_withInputs ha]
  cases ownError s <;> rfl

theorem commandCycle_withInputs (i : Instr) (ha : SameAnswers s l) :
    commandCycle i.opcode (commandAct i) (s.withInputs l) = (commandCycle i.opcode (commandAct i) s).withInputs l := by
  have hverdict : verdict i.opcode (s.withInputs l).state (s.withInputs l).cfgSrc = verdict i.opcode s.state s.cfgSrc := rfl
  unfold commandCycle
  rw [ownError_beside ha, ownStep_withInputs ha, hverdict]
  cases ownError s with
  | some c => rfl
  | none =>
    cases verdict i.opcode s.state s.cfgSrc with
    | act => exact commandAct_withInputs (ownStep s) l i
    | _ => rfl

end

/-! The step with other pins. -/

/-- The coming of the next pins forgets those of this cycle. -/
theorem endCycle_withInputs {s : State} {l : List CycleInput} (h : s.inputs.tail = l.tail) :
    endCycle (s.withInputs l) = endCycle s := by
  unfold endCycle
  rw [h]
  rfl

/-- Two cycles with the same reset and the same host writes are the same step, if their bodies lead to the same state
but for the pins of the cycle. -/
theorem step_withInputs {s : State} {p p' : CycleInput} {rest : List CycleInput} (hs : s.inputs = p :: rest)
    (hrst : p'.rst = p.rst) (hwrites : p'.memWrites = p.memWrites)
    (hbody : mapNext endCycle (cycleBody p' (s.afterWrites.withInputs (p' :: rest))) =
      mapNext endCycle (cycleBody p s.afterWrites)) : step (s.withInputs (p' :: rest)) = step s := by
  have hpins : s.pins = p := by rw [State.pins, hs]; rfl
  have hpins' : (s.withInputs (p' :: rest)).pins = p' := rfl
  have hafter : hostWrites (s.withInputs (p' :: rest)) p.memWrites = s.afterWrites.withInputs (p' :: rest) := by
    rw [State.afterWrites, hpins, State.withInputs, hostWrites_beside (.inr ⟨rfl, rfl, rfl⟩)]
    simp [State.withInputs]
  unfold step clockEdge
  rw [hpins, hpins', hrst, hwrites, hafter, hbody, State.afterWrites, hpins]
  rfl

/-- The states of the cycle keep the list of pins. -/
theorem ownCycle_inputs (s : State) : (ownCycle s).inputs = s.inputs := by
  obtain ⟨-, -, -, -, -, -, -, -, -, -, hstep⟩ := ownStep_frame s
  cases ho : ownError s with
  | some c => rw [ownCycle_of_ownError_some ho]; rfl
  | none => rw [ownCycle_of_ownError_none ho, hstep]

theorem commandAct_inputs (i : Instr) (s : State) : (commandAct i s).inputs = s.inputs := by
  cases i with
  | start =>
    show (startFrame s).inputs = s.inputs
    unfold startFrame
    split <;> rfl
  | endInput => rcases endOfInput_cases s with ⟨-, -, heq⟩ | ⟨-, heq⟩ <;> rw [commandAct, heq]
  | _ => rfl

theorem commandCycle_inputs (i : Instr) (s : State) :
    (commandCycle i.opcode (commandAct i) s).inputs = s.inputs := by
  obtain ⟨-, -, -, -, -, -, -, -, -, -, hstep⟩ := ownStep_frame s
  rcases commandCycle_cases i.opcode (commandAct i) s with
    ⟨c, -, heq⟩ | ⟨-, ⟨-, heq⟩ | ⟨c, -, heq⟩ | ⟨-, heq⟩⟩ <;> rw [heq]
  · rfl
  · rw [commandAct_inputs, hstep]
  · exact hstep
  · exact hstep

theorem afterWrites_inputs (s : State) : s.afterWrites.inputs = s.inputs := hostWrites_inputs s _

/-- Settles O14: a stalled word's cycle is the own action alone, which reads no pin of the command port. -/
theorem stalledWordHasNoEffect : Obligations.StalledWordHasNoEffect := by
  intro s p rest hs hrst hready
  have hstall : verdict (decode p.cmdWord).opcode s.afterWrites.state s.afterWrites.cfgSrc = .stall := by
    have hnow : verdict (decode p.cmdWord).opcode s.state s.cfgSrc = .stall := by
      simpa [outputsOf, hrst, cmdReady] using hready
    obtain ⟨m, u, heq⟩ := exists_afterWrites_eq s
    rw [heq]
    exact hnow
  have hpins : s.afterWrites.pins = p := by rw [afterWrites_pins, State.pins, hs]; rfl
  have hsame : SameAnswers s.afterWrites ({ p with cmdValid := false } :: rest) := by
    rw [SameAnswers, hpins]
    exact ⟨fun _ => rfl, fun _ => rfl⟩
  have hbody : cycleBody p s.afterWrites = .next (ownCycle s.afterWrites) := by
    unfold cycleBody
    rw [hrst, exec_of_verdict_stall hstall]
    cases p.cmdValid <;> rfl
  have hquiet : ∀ u, cycleBody { p with cmdValid := false } u = .next (ownCycle u) := fun u => by
    simp [cycleBody, hrst]
  refine (step_withInputs (p' := { p with cmdValid := false }) hs rfl rfl ?_).symm
  rw [hbody, hquiet, ownCycle_withInputs hsame]
  refine congrArg Host.Outcome.next (endCycle_withInputs ?_)
  rw [ownCycle_inputs, afterWrites_inputs, hs]
  rfl

/-- A cycle with the same port of commands and reset, and the same answers as far as the state reads them. -/
theorem step_with_sink_pins {s : State} {p p' : CycleInput} {rest : List CycleInput} (hs : s.inputs = p :: rest)
    (hport : p'.rst = p.rst ∧ p'.cmdValid = p.cmdValid ∧ p'.cmdWord = p.cmdWord ∧ p'.memWrites = p.memWrites)
    (hwrite : s.state.offersByte = true → p'.writeAnswer = p.writeAnswer)
    (hflush : s.state.requestsFlush = true → p'.flushAnswer = p.flushAnswer) :
    step (s.withInputs (p' :: rest)) = step s := by
  obtain ⟨hrst, hvalid, hword, hwrites⟩ := hport
  have hstate : s.afterWrites.state = s.state := hostWrites_state s _
  have hpins : s.afterWrites.pins = p := by rw [afterWrites_pins, State.pins, hs]; rfl
  have hsame : SameAnswers s.afterWrites (p' :: rest) := by
    rw [SameAnswers, hpins, hstate]
    exact ⟨hwrite, hflush⟩
  refine step_withInputs hs hrst hwrites ?_
  unfold cycleBody
  rw [hrst, hvalid, hword, exec_eq_next, exec_eq_next, commandCycle_withInputs _ hsame, ownCycle_withInputs hsame]
  have htail : s.afterWrites.inputs.tail = (p' :: rest).tail := by rw [afterWrites_inputs, hs]; rfl
  cases p.rst with
  | true => exact congrArg Host.Outcome.next (endCycle_withInputs (s := resetRegisters s.afterWrites) htail)
  | false =>
    cases p.cmdValid with
    | true => exact congrArg Host.Outcome.next (endCycle_withInputs (by rw [commandCycle_inputs, htail]))
    | false => exact congrArg Host.Outcome.next (endCycle_withInputs (by rw [ownCycle_inputs, htail]))

/-- Settles O42: a state that offers no byte reads no answer to one, and likewise for flushes. -/
theorem unrequestedSinkAnswersAreIgnored : Obligations.UnrequestedSinkAnswersAreIgnored := by
  intro s p rest ready err hs
  refine ⟨fun hoffers => ?_, fun hrequests => ?_⟩
  · exact step_with_sink_pins (p' := { p with txReady := ready, txErr := err }) hs ⟨rfl, rfl, rfl, rfl⟩
      (fun h => absurd (hoffers.symm.trans h) nofun) fun _ => rfl
  · exact step_with_sink_pins (p' := { p with flDone := ready, flErr := err }) hs ⟨rfl, rfl, rfl, rfl⟩
      (fun _ => rfl) fun h => absurd (hrequests.symm.trans h) nofun

/-! Stream mode (R100). -/

/-- Cursor, read in flight and draw counter of two states are the same. -/
abbrev SameReads (s t : State) : Prop :=
  t.curX = s.curX ∧ t.curY = s.curY ∧ t.readAddr = s.readAddr ∧ t.draws = s.draws

theorem ownStep_sameReads {s : State} (hsrc : s.cfgSrc = true) (hs : s.state ≠ .fetch) : SameReads s (ownStep s) :=
  ownStep_cases (P := SameReads s) ⟨rfl, rfl, rfl, rfl⟩ (fun _ _ => ⟨rfl, rfl, rfl, rfl⟩) (fun _ _ => ⟨rfl, rfl, rfl, rfl⟩)
    (fun _ h => absurd (hsrc.symm.trans h) nofun) (fun _ h => absurd (hsrc.symm.trans h) nofun) (fun h => absurd h hs)
    (fun _ _ => ⟨rfl, rfl, rfl, rfl⟩) (fun _ _ => ⟨rfl, rfl, rfl, rfl⟩) (fun _ _ => ⟨rfl, rfl, rfl, rfl⟩)
    (fun _ _ => ⟨rfl, rfl, rfl, rfl⟩) (fun _ _ => ⟨rfl, rfl, rfl, rfl⟩) (fun _ _ => ⟨rfl, rfl, rfl, rfl⟩)

theorem endCycle_beside {s : State} {l : List CycleInput} {w h : BitVec 14} {n : BitVec 28} (hl : s.inputs = l) :
    endCycle (s.beside l w h n) = { endCycle s with width := w, height := h, len := n } := by
  subst hl
  rfl

/-- Settles O41: in stream mode neither the host's writes nor the cycle read the dimensions. -/
theorem streamFrameIgnoresTheMapper : Obligations.StreamFrameIgnoresTheMapper := by
  intro s t w h n hstep hbusy hsrc hfetch hrst
  have hreads : SameReads s t := by
    obtain ⟨m, u, r, hr, rfl⟩ := exists_effect_over_writes hstep
    exact hr.of_busy (P := SameReads s) hbusy hrst (fun _ ht => ht) ⟨rfl, rfl, rfl, rfl⟩ (ownStep_sameReads hsrc hfetch)
      (fun _ _ _ => ⟨rfl, rfl, rfl, rfl⟩) (fun _ _ => endOfInput_cursor _)
  obtain ⟨hx, hy, haddr, hdraws⟩ := hreads
  refine ⟨?_, hx, hy, haddr, hdraws, ?_⟩
  · obtain ⟨hruns, hrange, rfl⟩ := (step_eq_next s t).mp hstep
    refine (step_eq_next (s.beside s.inputs w h n) _).mpr ⟨hruns, hrange, ?_⟩
    have hd : SameDimensions s w h n := .inl hsrc
    have hpins : (s.beside s.inputs w h n).pins = s.pins := rfl
    have hbusy' : (hostWrites s s.pins.memWrites).state.phase = .busy := by rwa [hostWrites_state]
    have hd' : SameDimensions (hostWrites s s.pins.memWrites) w h n := .inl (by rw [State.cfgSrc, hostWrites_cfg]; exact hsrc)
    have hsame : SameAnswers (hostWrites s s.pins.memWrites) s.inputs := by
      rw [SameAnswers, hostWrites_pins]
      exact ⟨fun _ => rfl, fun _ => rfl⟩
    unfold cycleResult
    rw [hpins, hostWrites_beside hd, hrst, commandCycle_beside hbusy' hsame hd', ownCycle_beside hsame hd']
    cases s.pins.cmdValid with
    | true => exact (endCycle_beside ((commandCycle_inputs _ _).trans (hostWrites_inputs s _))).symm
    | false => exact (endCycle_beside ((ownCycle_inputs _).trans (hostWrites_inputs s _))).symm
  · have hread : s.issuesRead = false := State.issuesRead_of_stream hsrc
    simp [outputsOf, hread]

end Sys2Proof.Machine
end

section
/-! PROOFS. Time (R139, R161, R236): how long a pause lasts, and waits that change nothing. -/

namespace Sys2Proof.Machine

/-! Runs. -/

theorem core_run_succ_of_step {M : Host.Core} {s t : M.State} (h : M.step s = .next t) (k : Nat) :
    M.run (k + 1) s = M.run k t := by
  rw [Host.Core.run, h]

theorem run_succ_of_step {s t : State} (h : step s = .next t) (k : Nat) :
    Sys2Proof.core.run (k + 1) s = Sys2Proof.core.run k t :=
  core_run_succ_of_step (M := Sys2Proof.core) h k

/-- What holds of the pins of the first `k + 1` cycles, and of quiet pins, holds of this cycle's. -/
theorem pins_of_take {P : CycleInput → Prop} {s : State} {k : Nat} (hquiet : P {}) (h : ∀ p ∈ s.inputs.take (k + 1), P p) :
    P s.pins ∧ ∀ p ∈ (endCycle s).inputs.take k, P p := by
  rw [State.pins, endCycle_inputs]
  cases hs : s.inputs with
  | nil => exact ⟨hquiet, by simp⟩
  | cons p rest =>
    rw [hs, List.take_succ_cons] at h
    exact ⟨h p List.mem_cons_self, fun q hq => h q (List.mem_cons_of_mem _ hq)⟩

/-! A word that raises no error and acts nowhere. -/

/-- The cycle of a word that is NOP or that the state ignores or stalls is the own action alone (R170). -/
theorem exec_eq_ownCycle {i : Instr} {s : State} (hact : verdict i.opcode s.state s.cfgSrc = .act → i = .nop)
    (herr : ∀ c, verdict i.opcode s.state s.cfgSrc ≠ .error c) : exec i s = .next (ownCycle s) := by
  cases hv : verdict i.opcode s.state s.cfgSrc with
  | act => rw [hact hv, exec_nop]
  | error c => exact absurd hv (herr c)
  | ignore => exact exec_of_verdict_ignore hv
  | stall => exact exec_of_verdict_stall hv

/-- A cycle without reset, in which the word on the port, if there is one, has no effect of its own. -/
theorem step_eq_ownCycle {s : State} (hever : s.everReset = true)
    (hrange : writesInRange s.params s.pins.memWrites = true) (hrst : s.pins.rst = false)
    (hword : s.pins.cmdValid = true → exec (decode s.pins.cmdWord) s.afterWrites = .next (ownCycle s.afterWrites)) :
    step s = .next (endCycle (ownCycle s.afterWrites)) := by
  unfold step clockEdge cycleBody
  change (if !s.everReset && !s.pins.rst then _ else if !writesInRange s.params s.pins.memWrites then _ else
    mapNext endCycle (if s.pins.rst then _ else if s.pins.cmdValid then exec (decode s.pins.cmdWord) s.afterWrites
      else .next (ownCycle s.afterWrites))) = _
  rw [hever, hrange, hrst]
  cases hv : s.pins.cmdValid with
  | true => simp [hword hv, mapNext]
  | false => simp [mapNext]

/-- Settles O11: no word on the port, so none that has an effect. -/
theorem stepWithoutACommandIsTheOwnAction : Obligations.StepWithoutACommandIsTheOwnAction :=
  fun _ ⟨hever, hrange⟩ ⟨hrst, hvalid⟩ =>
    step_eq_ownCycle hever hrange hrst fun h => absurd (hvalid.symm.trans h) nofun

/-! Waits (R236). -/

/-- The states that wait for the sink, or in stream mode for the host. -/
abbrev Waits (s : State) : Prop :=
  (s.state.offersByte = true ∨ s.state.requestsFlush = true) ∨ (s.state = .run ∧ s.cfgSrc = true)

/-- A cycle with a silent sink in which nothing is offered but NOP and CLEAR. -/
abbrev SilentCycle (p : CycleInput) : Prop :=
  p.rst = false ∧ p.memWrites = [] ∧ p.writeAnswer = .wait ∧ p.flushAnswer = .wait ∧
    (p.cmdValid = true → decode p.cmdWord = .nop ∨ decode p.cmdWord = .clear)

theorem Waits.busy {s : State} (h : Waits s) : s.state.phase = .busy := by
  rcases h with (h | h) | ⟨h, -⟩
  · rcases (SeqState.offersByte_eq_true_iff _).mp h with hs | hs | hs <;> rw [hs] <;> rfl
  · rcases (SeqState.requestsFlush_eq_true_iff _).mp h with hs | hs | hs <;> rw [hs] <;> rfl
  · rw [h]
    rfl

theorem ownCycle_of_wait {s : State} (h : Waits s) (hsink : SilentSink s) : ownCycle s = s := by
  obtain ⟨hwrite, hflush⟩ := hsink
  rcases h with (h | h) | ⟨hs, hsrc⟩
  · exact ownCycle_of_write_wait h hwrite
  · exact ownCycle_of_flush_wait h hflush
  · simp [ownCycle, ownError, ownStep, stepRun, SeqState.offersByte, SeqState.requestsFlush, hs, hsrc]

theorem step_of_silent_wait {s : State} (hever : s.everReset = true) (hwait : Waits s) (hp : SilentCycle s.pins) :
    step s = .next (endCycle s) := by
  obtain ⟨hrst, hwrites, hwrite, hflush, hword⟩ := hp
  have hafter : s.afterWrites = s := by rw [State.afterWrites, hwrites]; rfl
  have hstay : ownCycle s = s := ownCycle_of_wait hwait ⟨hwrite, hflush⟩
  rw [step_eq_ownCycle hever (by rw [hwrites]; rfl) hrst, hafter, hstay]
  intro hv
  rw [hafter]
  rcases hword hv with hnop | hclear
  · rw [hnop, exec_nop]
  · rw [hclear]
    exact exec_of_verdict_ignore ((verdict_clear _ _).trans (if_pos hwait.busy))

/-- Settles O46: a silent cycle only brings up the next pins, so `k` of them drop `k` pins. -/
theorem unansweredWaitsChangeNothing : Obligations.UnansweredWaitsChangeNothing := by
  intro s k
  induction k generalizing s with
  | zero => exact fun _ _ _ => rfl
  | succ k ih =>
    intro hever hwait hpins
    obtain ⟨hp, hrest⟩ := pins_of_take (P := SilentCycle) ⟨rfl, rfl, rfl, rfl, nofun⟩ hpins
    rw [run_succ_of_step (step_of_silent_wait hever hwait hp), ih (endCycle s) hever hwait hrest]
    simp [endCycle]

/-! The pause (R161). -/

theorem ownCycle_of_pause {s : State} (hs : s.state = .pause) : ownCycle s = stepPause s := by
  rw [ownCycle_of_ownError_none (by simp [ownError, hs, SeqState.offersByte, SeqState.requestsFlush]), ownStep, hs]

theorem ownCycle_pause_counts {s : State} (hs : s.state = .pause) (h : s.pauseCnt ≠ 1) :
    ownCycle s = { s with pauseCnt := s.pauseCnt - 1 } := by
  rw [ownCycle_of_pause hs, stepPause, if_neg h]

theorem ownCycle_pause_ends {s : State} (hs : s.state = .pause) (h : s.pauseCnt = 1) :
    ownCycle s = { s with pauseCnt := 0, trace := s.trace ++ [.pause], state := s.resume } := by
  rw [ownCycle_of_pause hs, stepPause, if_pos h, h]
  rfl

/-- A cycle in a pause without reset, in which a word, if one is offered, raises no error. -/
abbrev PauseCycle (params : Params) (stream : Bool) (p : CycleInput) : Prop :=
  p.rst = false ∧ writesInRange params p.memWrites = true ∧
    (p.cmdValid = true → ∀ c, verdict (decode p.cmdWord).opcode .pause stream ≠ .error c)

theorem step_of_pause {s : State} (hs : s.state = .pause) (hever : s.everReset = true)
    (hp : PauseCycle s.params s.cfgSrc s.pins) : step s = .next (endCycle (ownCycle s.afterWrites)) := by
  obtain ⟨hrst, hrange, hword⟩ := hp
  refine step_eq_ownCycle hever hrange hrst fun hv => exec_eq_ownCycle (fun hact => ?_) ?_
  · refine Instr.eq_nop_of_opcode ?_
    rw [State.afterWrites, hostWrites_state, hs] at hact
    simpa [verdict_eq_act] using hact
  · obtain ⟨m, u, heq⟩ := exists_afterWrites_eq s
    rw [heq, show State.state _ = .pause from hs]
    exact hword hv

/-- The statement of the pause from a count of `n + 1` on. -/
abbrev PauseRuns (s : State) (n : Nat) : Prop :=
  (∀ k ≤ n, ∃ t, Sys2Proof.core.run k s = .next t ∧ t.state = .pause ∧ t.pauseCnt.toNat = n + 1 - k ∧
      t.trace = s.trace) ∧
    ∃ t, Sys2Proof.core.run (n + 1) s = .next t ∧ t.pauseCnt = 0 ∧ t.trace = s.trace ++ [.pause] ∧ t.state = s.resume

theorem pauseRuns {s : State} {n : Nat} (hs : s.state = .pause) (hever : s.everReset = true)
    (hcount : s.pauseCnt.toNat = n + 1)
    (hpins : ∀ p ∈ s.inputs.take (n + 1), PauseCycle s.params s.cfgSrc p) : PauseRuns s n := by
  induction n generalizing s with
  | zero =>
    obtain ⟨hp, -⟩ := pins_of_take (P := PauseCycle s.params s.cfgSrc) ⟨rfl, rfl, nofun⟩ hpins
    have hone : s.pauseCnt = 1 := BitVec.eq_of_toNat_eq hcount
    obtain ⟨m, u, heq⟩ := exists_afterWrites_eq s
    have hstep := step_of_pause hs hever hp
    rw [heq, ownCycle_pause_ends (s := { s with mem := m, unstable := u }) hs hone] at hstep
    refine ⟨fun k hk => ?_, _, run_succ_of_step hstep 0, rfl, rfl, rfl⟩
    obtain rfl := Nat.le_zero.mp hk
    exact ⟨s, rfl, hs, hcount, rfl⟩
  | succ n ih =>
    obtain ⟨hp, hrest⟩ := pins_of_take (P := PauseCycle s.params s.cfgSrc) ⟨rfl, rfl, nofun⟩ hpins
    have hne : s.pauseCnt ≠ 1 := by
      intro h1
      rw [h1] at hcount
      exact absurd hcount (by simp)
    obtain ⟨m, u, heq⟩ := exists_afterWrites_eq s
    have hstep := step_of_pause hs hever hp
    rw [heq, ownCycle_pause_counts (s := { s with mem := m, unstable := u }) hs hne] at hstep
    have hnext : (s.pauseCnt - 1).toNat = n + 1 := by bv_omega
    obtain ⟨hduring, t, hrun, hend⟩ := ih (s := endCycle { s with mem := m, unstable := u, pauseCnt := s.pauseCnt - 1 })
      hs hever hnext hrest
    refine ⟨fun k hk => ?_, t, (run_succ_of_step hstep _).trans hrun, hend⟩
    cases k with
    | zero => exact ⟨s, rfl, hs, hcount, rfl⟩
    | succ k =>
      obtain ⟨t, hrun, hstate, hcnt, htrace⟩ := hduring k (by omega)
      exact ⟨t, (run_succ_of_step hstep k).trans hrun, hstate, by omega, htrace⟩

/-- Settles O45: the own action counts down, and each cycle of the pause is the own action alone. -/
theorem pauseLastsExactlyItsCount : Obligations.PauseLastsExactlyItsCount :=
  ⟨fun _ hs => ⟨ownCycle_pause_counts hs, ownCycle_pause_ends hs⟩,
    fun _ _ hs hever hcount hpins => pauseRuns hs hever hcount hpins⟩

end Sys2Proof.Machine
end

section
/-! PROOFS. The frame function (R145) as its lanes and blocks (R147, R149), and its counts (R146). -/

namespace Sys2Proof.Machine

/-! The bits of a payload byte. -/

/-- The number whose bit `i` is `f i`, for the bits below `n`. -/
theorem testBit_sum_bits (f : Nat → Bool) (n : Nat) :
    ((List.range n).map fun i => (f i).toNat * 2 ^ i).sum < 2 ^ n ∧
      ∀ i, ((List.range n).map fun i => (f i).toNat * 2 ^ i).sum.testBit i = (decide (i < n) && f i) := by
  induction n with
  | zero => simp
  | succ n ih =>
    obtain ⟨hlt, hbit⟩ := ih
    rw [List.range_succ, List.map_append, List.sum_append, List.map_singleton, List.sum_singleton, Nat.add_comm,
      Nat.mul_comm (f n).toNat]
    have hf : (f n).toNat ≤ 1 := Bool.toNat_le (f n)
    refine ⟨?_, fun i => ?_⟩
    · rw [Nat.pow_succ]
      have hmul : 2 ^ n * (f n).toNat ≤ 2 ^ n * 1 := Nat.mul_le_mul_left _ hf
      omega
    · rw [Nat.testBit_two_pow_mul_add _ hlt]
      split
      · next hi => rw [hbit, decide_eq_true hi, decide_eq_true (Nat.lt_succ_of_lt hi)]
      · next hi =>
        rcases Nat.lt_or_eq_of_le (Nat.le_of_not_lt hi) with hgt | rfl
        · rw [Nat.testBit_lt_two_pow (lt_of_le_of_lt hf (Nat.one_lt_two_pow (by omega)))]
          simp [show ¬ i < n + 1 by omega]
        · cases f n <;> simp

/-- Bit `i` of payload byte `j` is lane bit 8j + i (R149). -/
theorem getLsbD_laneByte (l : List Byte) (j : Nat) {i : Nat} (hi : i < 8) :
    (laneByte l j).getLsbD i = laneBit l (8 * j + i) := by
  rw [laneByte, BitVec.getLsbD_ofNat, (testBit_sum_bits (fun i => laneBit l (8 * j + i)) 8).2]
  simp [hi]

theorem laneByte_congr {l l' : List Byte} {j : Nat} (h : ∀ i < 8, laneBit l (8 * j + i) = laneBit l' (8 * j + i)) :
    laneByte l j = laneByte l' j :=
  BitVec.eq_of_getLsbD_eq fun i hi => by rw [getLsbD_laneByte l j hi, getLsbD_laneByte l' j hi, h i hi]

theorem laneBit_of_length_le {l : List Byte} {m : Nat} (h : l.length ≤ m) : laneBit l m = false := by
  rw [laneBit, List.getElem?_eq_none h]

/-- One more sample adds its own lane bit. -/
theorem laneBit_append_singleton (l : List Byte) (b : Byte) (m : Nat) :
    laneBit (l ++ [b]) m = (laneBit l m || (decide (m = l.length) && threshold b)) := by
  rcases Nat.lt_trichotomy m l.length with hlt | rfl | hgt
  · simp [laneBit, List.getElem?_append_left hlt, hlt.ne]
  · simp [laneBit]
  · rw [laneBit_of_length_le (l := l ++ [b]) (by simpa using hgt), laneBit_of_length_le hgt.le]
    simp [hgt.ne']

/-- The byte of lanes past the end of the samples is 0. -/
theorem laneByte_of_length_le {l : List Byte} {j : Nat} (h : l.length ≤ 8 * j) : laneByte l j = 0 :=
  BitVec.eq_of_getLsbD_eq fun i hi => by
    rw [getLsbD_laneByte l j hi, laneBit_of_length_le (by omega)]
    simp

/-- A complete payload byte is not changed by later samples. -/
theorem laneByte_append_of_le {l : List Byte} {j : Nat} (b : Byte) (h : 8 * j + 8 ≤ l.length) :
    laneByte (l ++ [b]) j = laneByte l j :=
  laneByte_congr fun i hi => by
    rw [laneBit_append_singleton, decide_eq_false (show ¬ 8 * j + i = l.length by omega)]
    simp

/-- The byte under way takes the threshold bit of the next sample at the position of its count (R132). -/
theorem laneByte_append_singleton (l : List Byte) (b : Byte) :
    laneByte (l ++ [b]) (l.length / 8) =
      laneByte l (l.length / 8) ||| ((if threshold b then 1 else 0 : Byte) <<< (l.length % 8)) := by
  refine BitVec.eq_of_getLsbD_eq fun i hi => ?_
  rw [BitVec.getLsbD_or, getLsbD_laneByte _ _ hi, getLsbD_laneByte _ _ hi, laneBit_append_singleton,
    BitVec.getLsbD_shiftLeft]
  congr 1
  by_cases h : i = l.length % 8
  · have hpos : 8 * (l.length / 8) + i = l.length := by omega
    have hnot : ¬ i < l.length % 8 := by omega
    have hzero : i - l.length % 8 = 0 := by omega
    rw [decide_eq_true hpos, decide_eq_false hnot, decide_eq_true hi, hzero]
    cases threshold b <;> rfl
  · have hpos : ¬ 8 * (l.length / 8) + i = l.length := by omega
    rw [decide_eq_false hpos]
    by_cases hlt : i < l.length % 8
    · simp [hlt]
    · have hne : i - l.length % 8 ≠ 0 := by omega
      cases threshold b <;> simp [BitVec.getLsbD_one, hne]

/-! The loop of R145 in closed form. -/

/-- The events of the first `j` payload bytes. -/
def payloads (l : List Byte) (j : Nat) : List Event := (List.range j).flatMap (payloadEvents l)

theorem payloads_succ (l : List Byte) (j : Nat) : payloads l (j + 1) = payloads l j ++ payloadEvents l j := by
  simp [payloads, List.range_succ]

theorem payloads_append {l : List Byte} {j : Nat} (b : Byte) (h : 8 * j ≤ l.length) :
    payloads (l ++ [b]) j = payloads l j := by
  refine List.flatMap_congr fun i hi => ?_
  have hi' : i < j := List.mem_range.mp hi
  rw [payloadEvents, payloadEvents, laneByte_append_of_le b (by omega)]

/-- Emitting the byte under way adds the events of that payload byte, and counts it in the block. -/
theorem packPayload_lane (l : List Byte) (ev : List Event) (k j : Nat) :
    packPayload ⟨ev, laneByte l j, k, j % 8⟩ = ⟨ev ++ payloadEvents l j, 0, 0, (j + 1) % 8⟩ := by
  rw [packPayload_eq, payloadEvents]
  by_cases h : j % 8 = 7
  · simp [h, Config.blockBytes, show (j + 1) % 8 = 0 by omega]
  · simp [h, Config.blockBytes, show ¬ (j + 1) % 8 = 0 by omega, show j % 8 + 1 = (j + 1) % 8 by omega]

/-- R145's loop after all samples: the complete payload bytes are out, the lanes of the next are in the accumulator. -/
theorem packAll_eq_lanes (l : List Byte) :
    packAll l =
      ⟨packStart.ev ++ payloads l (l.length / 8), laneByte l (l.length / 8), l.length % 8, l.length / 8 % 8⟩ := by
  induction l using List.reverseRecOn with
  | nil => rfl
  | append_singleton l b ih =>
    have hlane := laneByte_append_singleton l b
    have hevents : payloads (l ++ [b]) (l.length / 8) = payloads l (l.length / 8) := payloads_append b (by omega)
    rw [packAll_append, ih, packSample, List.length_append, List.length_singleton]
    by_cases h7 : l.length % 8 + 1 = Config.bitsPerByte
    · have hmod : l.length % 8 + 1 = 8 := h7
      have hdiv : (l.length + 1) / 8 = l.length / 8 + 1 := by omega
      have hzero : (l.length + 1) % 8 = 0 := by omega
      simp only [h7, if_true]
      rw [← hlane, packPayload_lane, hdiv, hzero, payloads_succ, hevents, List.append_assoc,
        laneByte_of_length_le (j := l.length / 8 + 1) (by simp; omega)]
    · have hmod : l.length % 8 + 1 ≠ 8 := h7
      have hdiv : (l.length + 1) / 8 = l.length / 8 := by omega
      have hnext : (l.length + 1) % 8 = l.length % 8 + 1 := by omega
      simp only [h7, if_false]
      rw [← hlane, hdiv, hnext, hevents]

/-- Settles O54: the loop's events are the complete payload bytes, and the end adds the tail byte under PAD. -/
theorem frameIsItsLanesAndBlocks : Obligations.FrameIsItsLanesAndBlocks := by
  intro l pad
  have hframe : frameByLanes l pad = packStart.ev ++ payloads l (payloadBytes l.length pad) ++ [.flush] := rfl
  rw [frame, packEnd, packAll_eq_lanes, hframe]
  congr 1
  split
  · next htail =>
    obtain ⟨hpos, rfl⟩ := htail
    have hbits : 0 < l.length % 8 := hpos
    have hcount : payloadBytes l.length true = l.length / 8 + 1 := by
      rw [payloadBytes, if_pos rfl]
      omega
    rw [packPayload_lane, hcount, payloads_succ, List.append_assoc]
  · next htail =>
    have hcount : payloadBytes l.length pad = l.length / 8 := by
      cases pad with
      | false => rfl
      | true =>
        rw [payloadBytes, if_pos rfl]
        have hbits : ¬ 0 < l.length % 8 := fun h => htail ⟨h, rfl⟩
        omega
    rw [hcount]

/-! The counts (R146). -/

/-- The events of the first `j` payload bytes: a byte each, and a byte, a flush and a pause for each full block. -/
theorem payloads_counts (l : List Byte) (j : Nat) :
    byteCount (payloads l j) = j + j / 8 ∧ flushCount (payloads l j) = j / 8 ∧ pauseCount (payloads l j) = j / 8 := by
  induction j with
  | zero => exact ⟨rfl, rfl, rfl⟩
  | succ j ih =>
    obtain ⟨hbytes, hflushes, hpauses⟩ := ih
    rw [flushCount, pauseCount] at *
    rw [payloads_succ, byteCount_append, List.count_append, List.count_append, hbytes, hflushes, hpauses, payloadEvents]
    by_cases h : (j + 1) % Config.blockBytes = 0
    · have h8 : (j + 1) % 8 = 0 := h
      rw [if_pos h]
      refine ⟨?_, ?_, ?_⟩
      · show j + j / 8 + 2 = _
        omega
      · show j / 8 + 1 = _
        omega
      · show j / 8 + 1 = _
        omega
    · have h8 : (j + 1) % 8 ≠ 0 := h
      rw [if_neg h]
      refine ⟨?_, ?_, ?_⟩
      · show j + j / 8 + 1 = _
        omega
      · show j / 8 + 0 = _
        omega
      · show j / 8 + 0 = _
        omega

/-- Settles O55: the frame in its lanes and blocks, counted. -/
theorem frameCounts : Obligations.FrameCounts := by
  intro l pad
  obtain ⟨hbytes, hflushes, hpauses⟩ := payloads_counts l (payloadBytes l.length pad)
  have hframe : frame l pad = packStart.ev ++ payloads l (payloadBytes l.length pad) ++ [.flush] :=
    frameIsItsLanesAndBlocks l pad
  rw [flushCount, pauseCount] at *
  rw [hframe, byteCount_append, byteCount_append, List.count_append, List.count_append, List.count_append,
    List.count_append, hbytes, hflushes, hpauses]
  refine ⟨?_, ?_, ?_⟩
  · show 11 + _ + 0 = _
    omega
  · show 1 + _ + 1 = _
    omega
  · show 0 + _ + 0 = _
    omega

end Sys2Proof.Machine
end

section
/-! PROOFS. A mapper-mode frame from its cycles: the byte a read brings (R62, R106), the count of cycles to an ideal sink
(R247), and the trace of a completed frame (R130, R163). -/

namespace Sys2Proof.Machine

/-! The byte of a read. -/

theorem threshold_eq_true_iff (b : Byte) : threshold b = true ↔ 127 < b.toNat := by
  rw [threshold, decide_eq_true_iff]
  exact BitVec.lt_def

/-- Settles O34: 127 is the largest number of seven bits. -/
theorem thresholdIsBitSeven : Obligations.ThresholdIsBitSeven := by
  refine fun b => ⟨threshold_eq_true_iff b, ?_⟩
  rw [Bool.eq_iff_iff, threshold_eq_true_iff, BitVec.getLsbD, Nat.testBit_eq_decide_div_mod_eq, decide_eq_true_iff]
  omega

theorem ownCycle_run_read {s : State} (hs : s.state = .run) (hsrc : s.cfgSrc = false) (hb : s.indexInBounds = true) :
    ownCycle s = mapperStep s := by
  rw [ownCycle_of_ownError_none (by simp [ownError, hs, SeqState.offersByte, SeqState.requestsFlush])]
  simp [ownStep, stepRun, hs, hsrc, hb]

theorem ownCycle_run_end {s : State} (hs : s.state = .run) (hsrc : s.cfgSrc = false) (hb : s.indexInBounds = false) :
    ownCycle s = endOfInput s := by
  rw [ownCycle_of_ownError_none (by simp [ownError, hs, SeqState.offersByte, SeqState.requestsFlush])]
  simp [ownStep, stepRun, hs, hsrc, hb]

theorem ownCycle_fetch {s : State} (hs : s.state = .fetch) :
    ownCycle s = acceptSample s.memRdata { s with draws := s.drawsAfterRead } := by
  rw [ownCycle_of_ownError_none (by simp [ownError, hs, SeqState.offersByte, SeqState.requestsFlush]), ownStep, hs]
  rfl

/-- A bit shifted as a byte and as a number. -/
theorem bit_shiftLeft_eq_cast (p : Prop) [Decidable p] (k : Nat) :
    ((if p then 1 else 0 : Byte) <<< k) = (((if p then 1 else 0) <<< k : Nat) : Byte) := by
  apply BitVec.eq_of_toNat_eq
  rw [BitVec.toNat_shiftLeft, BitVec.natCast_eq_ofNat, BitVec.toNat_ofNat]
  split <;> rfl

/-- The pack step with the threshold bit spelled out (R131, R132). -/
theorem packBit_eq (acc : Byte) (k : BitVec 4) (b : Byte) :
    packBit acc k b = acc ||| (((if 127 < b.toNat then 1 else 0) <<< (k.toNat % 8) : Nat) : Byte) := by
  simp only [packBit, threshold_eq_true_iff, bit_shiftLeft_eq_cast]

/-- Settles O30: the RUN cycle issues the read of the index, the FETCH cycle packs the byte of that address. -/
theorem fetchTakesTheByteAtTheIndex : Obligations.FetchTakesTheByteAtTheIndex := by
  intro s hreg hs hsrc hlo hhi hstable
  have hb : s.indexInBounds = true := decide_eq_true ⟨hlo, hhi⟩
  obtain ⟨hwidth, -, -, hcursor, -⟩ := (regInv_iff s).mp hreg
  obtain ⟨hbit, -⟩ := hreg.row hs
  obtain ⟨-, -, -, -, haddr⟩ := mapperStep_spec s hwidth hcursor (mapperFrame_of (by rw [hs]; rfl) hsrc) hb
  have hnot : (mapperStep s).isUnstable (mapperStep s).readAddr.toNat = false := by
    rw [haddr, Bool.eq_false_iff]
    simpa [State.isUnstable] using hstable
  obtain ⟨hbyte, hdraws⟩ := memRdata_of_stable hnot
  rw [haddr] at hbyte
  rw [ownCycle_run_read hs hsrc hb, ownCycle_fetch (s := mapperStep s) rfl, hbyte, hdraws]
  show acceptSample (byteAt s.mem s.index.toNat) (mapperStep s) = _
  generalize byteAt s.mem s.index.toNat = b
  have hlane : s.bitCnt.toNat % 8 = s.bitCnt.toNat := by bv_omega
  have hacc := packBit_eq s.acc s.bitCnt b
  rw [hlane] at hacc
  rw [← hacc]
  rfl

/-! The cycles left to an ideal sink (R247). -/

theorem payloadBytes_add_eight (n : Nat) (pad : Bool) : payloadBytes (n + 8) pad = payloadBytes n pad + 1 := by
  cases pad with
  | false => exact Nat.add_div_right n (by decide)
  | true =>
    rw [payloadBytes, payloadBytes, if_pos rfl, if_pos rfl]
    omega

/-- With no sample to come and no tail byte, the last RUN and END_FL are left. -/
theorem cyclesFromRun_end_without_tail {p k nb : Nat} {pad : Bool} (hk : k ≤ 7) (hnb : nb ≤ 7)
    (htail : pad = false ∨ k = 0) : cyclesFromRun p 0 k nb pad = 2 := by
  have hcount : payloadBytes k pad = 0 := by
    rcases htail with rfl | rfl
    · exact Nat.div_eq_of_lt (by omega)
    · cases pad <;> rfl
  simp [cyclesFromRun, hcount, Nat.div_eq_of_lt (show nb < 8 by omega)]

/-- With no sample to come and a tail byte under PAD, its EMIT and the block work of a full block come in between. -/
theorem cyclesFromRun_end_with_tail {p k nb : Nat} (hk : k ≤ 7) (hnb : nb ≤ 7) (hpos : k ≠ 0) :
    cyclesFromRun p 0 k nb true = 1 + (if nb = 7 then 2 + p + 1 else 1) + 1 := by
  have hcount : payloadBytes k true = 1 := by
    rw [payloadBytes, if_pos rfl]
    omega
  simp only [cyclesFromRun, Nat.add_zero, hcount]
  by_cases h7 : nb = 7
  · rw [if_pos h7, h7]
    omega
  · rw [if_neg h7, Nat.div_eq_of_lt (show nb + 1 < 8 by omega)]
    omega

/-- A sample that completes no byte takes its RUN and its FETCH. -/
theorem cyclesFromRun_sample (p n k nb : Nat) (pad : Bool) :
    cyclesFromRun p (n + 1) k nb pad = 2 + cyclesFromRun p n (k + 1) nb pad := by
  rw [cyclesFromRun, cyclesFromRun, show k + (n + 1) = k + 1 + n by omega]
  omega

/-- A byte takes its EMIT, and after the eighth of a block the block work. -/
theorem cyclesFromRun_byte (p n nb : Nat) (pad : Bool) :
    cyclesFromRun p n 8 nb pad =
      1 + (if nb = 7 then 2 + p + cyclesFromRun p n 0 0 pad else cyclesFromRun p n 0 (nb + 1) pad) := by
  have hblock : nb + (payloadBytes n pad + 1) = nb + 1 + payloadBytes n pad := by omega
  simp only [cyclesFromRun, Nat.add_comm 8 n, payloadBytes_add_eight, Nat.zero_add, hblock]
  by_cases h7 : nb = 7
  · rw [if_pos h7, h7, show 7 + 1 + payloadBytes n pad = payloadBytes n pad + 8 by omega,
      Nat.add_div_right _ (by decide), Nat.add_mul]
    omega
  · rw [if_neg h7]
    omega

/-- The cycles from the next RUN or END_FL on, with `k` bits pending and `nb` payload bytes in the block. -/
def State.restCycles (s : State) (k nb : Nat) : Nat :=
  if s.eoi then 1
  else cyclesFromRun s.params.pauseCycles.toNat (s.frameIdx.length - s.taken.length) k nb s.cfgTail

section
variable {s : State}

theorem cyclesLeft_of_pre (hs : s.state = .pre) : s.cyclesLeft = 11 - s.preCnt.toNat + 1 + s.restCycles 0 0 := by
  simp only [State.cyclesLeft, hs, State.restCycles]

theorem cyclesLeft_of_preFl (hs : s.state = .preFl) : s.cyclesLeft = 1 + s.restCycles 0 0 := by
  simp only [State.cyclesLeft, hs, State.restCycles]

theorem cyclesLeft_of_run (hs : s.state = .run) : s.cyclesLeft = s.restCycles s.bitCnt.toNat s.byteCnt.toNat := by
  simp only [State.cyclesLeft, hs, State.restCycles]

theorem cyclesLeft_of_fetch (hs : s.state = .fetch) :
    s.cyclesLeft = s.restCycles s.bitCnt.toNat s.byteCnt.toNat - 1 := by
  simp only [State.cyclesLeft, hs, State.restCycles]

theorem cyclesLeft_of_emit (hs : s.state = .emit) :
    s.cyclesLeft = 1 + (if s.byteCnt = 7 then 2 + s.params.pauseCycles.toNat + s.restCycles 0 0
      else s.restCycles 0 (s.byteCnt.toNat + 1)) := by
  simp only [State.cyclesLeft, hs, State.restCycles]

theorem cyclesLeft_of_pad (hs : s.state = .pad) :
    s.cyclesLeft = 2 + s.params.pauseCycles.toNat + s.restCycles 0 0 := by
  simp only [State.cyclesLeft, hs, State.restCycles]

theorem cyclesLeft_of_blkFl (hs : s.state = .blkFl) :
    s.cyclesLeft = 1 + s.params.pauseCycles.toNat + s.restCycles 0 0 := by
  simp only [State.cyclesLeft, hs, State.restCycles]

theorem cyclesLeft_of_pause (hs : s.state = .pause) : s.cyclesLeft = s.pauseCnt.toNat + s.restCycles 0 0 := by
  simp only [State.cyclesLeft, hs, State.restCycles]

theorem cyclesLeft_of_endFl (hs : s.state = .endFl) : s.cyclesLeft = 1 := by
  simp only [State.cyclesLeft, hs]

/-- Where a byte or a pause is done, RUN or END_FL follows with the same cycles. -/
theorem cyclesLeft_of_resume (hs : s.state = s.resume) :
    s.cyclesLeft = s.restCycles s.bitCnt.toNat s.byteCnt.toNat := by
  unfold State.resume at hs
  cases he : s.eoi with
  | true =>
    rw [he] at hs
    rw [cyclesLeft_of_endFl hs, State.restCycles, he]
    rfl
  | false =>
    rw [he] at hs
    exact cyclesLeft_of_run hs

/-! The cycle of each state that takes one off the count. -/

theorem cyclesLeft_run_end (hreg : RegInv s) (hmapper : MapperInv s) (hs : s.state = .run) (hm : s.mapperFrame = true)
    (hb : s.indexInBounds = false) : (endOfInput s).cyclesLeft + 1 = s.cyclesLeft := by
  obtain ⟨hbit, hbyte, -, heoi, -⟩ := hreg.row hs
  obtain ⟨hpos, hle, -⟩ := hmapper hm
  rw [advances_of_ne_fetch (by rw [hs]; exact nofun)] at hpos hle
  have hlast : s.frameIdx.length - s.taken.length = 0 := by
    have hget := frameIdx_getElem?_cursor hreg.cursor hm hpos hle
    rw [hb] at hget
    have hge := List.getElem?_eq_none_iff.mp hget
    omega
  have hk : s.bitCnt.toNat ≤ 7 := by bv_omega
  have hnb : s.byteCnt.toNat ≤ 7 := by bv_omega
  have h7 : s.byteCnt.toNat = 7 ↔ s.byteCnt = 7 := ⟨fun h => BitVec.eq_of_toNat_eq h, fun h => h ▸ rfl⟩
  rw [cyclesLeft_of_run hs, State.restCycles, heoi, hlast]
  rcases endOfInput_cases s with ⟨htail, hne, heq⟩ | ⟨htail, heq⟩ <;> rw [heq]
  · have hne' : s.bitCnt.toNat ≠ 0 := fun h => hne (BitVec.eq_of_toNat_eq h)
    rw [cyclesLeft_of_emit rfl, htail]
    simp only [Bool.false_eq_true, if_false, cyclesFromRun_end_with_tail hk hnb hne', h7]
    rfl
  · have htail' : s.cfgTail = false ∨ s.bitCnt.toNat = 0 := htail.imp id fun h => by rw [h]; rfl
    rw [cyclesLeft_of_endFl rfl]
    simp only [Bool.false_eq_true, if_false, cyclesFromRun_end_without_tail hk hnb htail']

theorem cyclesLeft_fetch (hreg : RegInv s) (hmapper : MapperInv s) (hs : s.state = .fetch) :
    (acceptSample s.memRdata { s with draws := s.drawsAfterRead }).cyclesLeft + 1 = s.cyclesLeft := by
  obtain ⟨hbit, hbyte, -, heoi, hsrc, -⟩ := hreg.row hs
  obtain ⟨-, hle, -⟩ := hmapper (mapperFrame_of (by rw [hs]; rfl) hsrc)
  rw [advances_of_fetch hs] at hle
  obtain ⟨n, hn⟩ : ∃ n, s.frameIdx.length - s.taken.length = n + 1 := ⟨_, (Nat.sub_add_cancel (by omega)).symm⟩
  generalize hb : s.memRdata = b
  have hnext : (acceptSample b { s with draws := s.drawsAfterRead }).restCycles = fun k nb =>
      cyclesFromRun s.params.pauseCycles.toNat n k nb s.cfgTail := by
    have hlen : s.frameIdx.length - (s.taken ++ [b]).length = n := by
      rw [List.length_append, List.length_singleton]
      omega
    funext k nb
    show (if s.eoi then 1 else cyclesFromRun _ (s.frameIdx.length - (s.taken ++ [b]).length) k nb s.cfgTail) = _
    rw [heoi, hlen]
    rfl
  have hnow : s.cyclesLeft = 1 + cyclesFromRun s.params.pauseCycles.toNat n (s.bitCnt.toNat + 1) s.byteCnt.toNat s.cfgTail := by
    rw [cyclesLeft_of_fetch hs, State.restCycles, heoi, hn, cyclesFromRun_sample]
    simp only [Bool.false_eq_true, if_false]
    omega
  have h7 : s.byteCnt.toNat = 7 ↔ s.byteCnt = 7 := ⟨fun h => BitVec.eq_of_toNat_eq h, fun h => h ▸ rfl⟩
  rw [hnow]
  by_cases hfull : s.bitCnt = 7
  · rw [cyclesLeft_of_emit (if_pos hfull), hnext, hfull,
      show (7 : BitVec 4).toNat + 1 = 8 from rfl, cyclesFromRun_byte]
    simp only [h7]
    exact Nat.add_comm _ _
  · have hcount : (s.bitCnt + 1).toNat = s.bitCnt.toNat + 1 := by bv_omega
    rw [cyclesLeft_of_run (if_neg hfull), hnext, acceptSample_bitCnt, if_neg hfull, hcount]
    exact Nat.add_comm _ _

/-- Every cycle of a running mapper-mode frame with an ideal sink takes one off the count. -/
theorem cyclesLeft_ownCycle (hreg : RegInv s) (hmapper : MapperInv s) (hm : s.mapperFrame = true) (hideal : IdealSink s) :
    (ownCycle s).cyclesLeft + 1 = s.cyclesLeft := by
  obtain ⟨hwrite, hflush⟩ := hideal
  cases hs : s.state with
  | idle => simp [State.mapperFrame, State.busy, hs, SeqState.phase] at hm
  | error => simp [State.mapperFrame, State.busy, hs, SeqState.phase] at hm
  | pre =>
    obtain ⟨-, -, hpre, -⟩ := hreg.row hs
    rw [ownCycle_pre_of_write_ok hs hwrite, cyclesLeft_of_pre hs]
    by_cases h10 : s.preCnt = 10
    · rw [cyclesLeft_of_preFl (if_pos h10), h10]
      show 1 + s.restCycles 0 0 + 1 = 11 - 10 + 1 + s.restCycles 0 0
      omega
    · have hcount : (s.preCnt + 1).toNat = s.preCnt.toNat + 1 := by bv_omega
      have hle : s.preCnt.toNat ≤ 10 := by bv_omega
      rw [cyclesLeft_of_pre (if_neg h10), emitEvent_preCnt, hcount]
      show 11 - (s.preCnt.toNat + 1) + 1 + s.restCycles 0 0 + 1 = 11 - s.preCnt.toNat + 1 + s.restCycles 0 0
      omega
  | preFl =>
    obtain ⟨⟨-, hbit⟩, hbyte, -⟩ := hreg.row hs
    rw [ownCycle_preFl_of_flush_ok hs hflush, cyclesLeft_of_preFl hs, cyclesLeft_of_run rfl]
    show s.restCycles s.bitCnt.toNat s.byteCnt.toNat + 1 = 1 + s.restCycles 0 0
    rw [hbit, hbyte]
    exact Nat.add_comm _ _
  | run =>
    have hsrc := cfgSrc_of_mapperFrame hm
    cases hb : s.indexInBounds with
    | false => rw [ownCycle_run_end hs hsrc hb, cyclesLeft_run_end hreg hmapper hs hm hb]
    | true =>
      obtain ⟨-, -, -, heoi, -⟩ := hreg.row hs
      rw [ownCycle_run_read hs hsrc hb, cyclesLeft_of_run hs, cyclesLeft_of_fetch rfl]
      show s.restCycles s.bitCnt.toNat s.byteCnt.toNat - 1 + 1 = s.restCycles s.bitCnt.toNat s.byteCnt.toNat
      rw [State.restCycles, heoi]
      simp only [Bool.false_eq_true, if_false, cyclesFromRun]
      omega
  | fetch => rw [ownCycle_fetch hs, cyclesLeft_fetch hreg hmapper hs]
  | emit =>
    obtain ⟨-, -, hbyte, -⟩ := hreg.row hs
    rw [ownCycle_emit_of_write_ok hs hwrite, cyclesLeft_of_emit hs]
    by_cases h7 : s.byteCnt = 7
    · rw [cyclesLeft_of_pad (if_pos h7)]
      simp only [if_pos h7]
      exact Nat.add_comm _ _
    · have hcount : (s.byteCnt + 1).toNat = s.byteCnt.toNat + 1 := by bv_omega
      rw [cyclesLeft_of_resume]
      · simp only [emitEvent_bitCnt, emitEvent_byteCnt, if_neg h7, hcount]
        exact Nat.add_comm _ _
      · exact if_neg h7
  | pad =>
    rw [ownCycle_pad_of_write_ok hs hwrite, cyclesLeft_of_pad hs, cyclesLeft_of_blkFl rfl]
    show 1 + s.params.pauseCycles.toNat + s.restCycles 0 0 + 1 = 2 + s.params.pauseCycles.toNat + s.restCycles 0 0
    omega
  | blkFl =>
    rw [ownCycle_blkFl_of_flush_ok hs hflush, cyclesLeft_of_blkFl hs, cyclesLeft_of_pause rfl]
    show s.params.pauseCycles.toNat + s.restCycles 0 0 + 1 = 1 + s.params.pauseCycles.toNat + s.restCycles 0 0
    omega
  | pause =>
    obtain ⟨⟨-, hbit⟩, hbyte, -, hpause, -⟩ := hreg.row hs
    rw [cyclesLeft_of_pause hs]
    by_cases h1 : s.pauseCnt = 1
    · rw [ownCycle_pause_ends hs h1, h1, cyclesLeft_of_resume rfl]
      show s.restCycles s.bitCnt.toNat s.byteCnt.toNat + 1 = 1 + s.restCycles 0 0
      rw [hbit, hbyte]
      exact Nat.add_comm _ _
    · rw [ownCycle_pause_counts hs h1, cyclesLeft_of_pause (s := { s with pauseCnt := s.pauseCnt - 1 }) hs]
      show (s.pauseCnt - 1).toNat + s.restCycles 0 0 + 1 = s.pauseCnt.toNat + s.restCycles 0 0
      have hcount : (s.pauseCnt - 1).toNat + 1 = s.pauseCnt.toNat := by bv_omega
      omega
  | endFl =>
    rw [ownCycle_endFl_of_flush_ok hs hflush, cyclesLeft_of_endFl hs]
    rfl

end

/-- A sink that answers ok raises no error of the own action. -/
theorem ownError_of_ideal {s : State} (h : IdealSink s) : ownError s = none := by
  rw [ownError_eq_none, h.1, h.2]
  exact ⟨fun _ => nofun, fun _ => nofun⟩

/-- Settles O48: with no word on the port the step is the own action, which takes one off the count. -/
theorem idealSinkCycleCountsDown : Obligations.IdealSinkCycleCountsDown := by
  rintro s ⟨hreg, -, -, hmapper⟩ hruns hm hideal hquiet
  refine ⟨_, stepWithoutACommandIsTheOwnAction s hruns hquiet, ?_⟩
  have hmapper' := hmapper.afterWrites hreg
  have hreg' := hreg.afterWrites
  obtain ⟨m, u, heq⟩ := exists_afterWrites_eq s
  rw [heq] at hmapper' hreg' ⊢
  refine ⟨cyclesLeft_ownCycle (s := { s with mem := m, unstable := u }) hreg' hmapper' hm hideal, ?_⟩
  rw [endCycle_state, ownCycle_of_ownError_none (ownError_of_ideal (s := { s with mem := m, unstable := u }) hideal)]
  refine ownStep_state_ne_error fun hs => ?_
  rw [State.mapperFrame, State.busy, show s.state = .error from hs] at hm
  exact absurd hm nofun

theorem startFrame_of_begins {s : State} (h : s.cfgSrc = true ∨ s.preOk = true) :
    startFrame s = { clearFrame s with state := .pre } := by
  rcases h with h | h <;> simp [startFrame, h]

/-- The state in which a START that passes its check leaves the machine (R177). -/
theorem exec_start_of_preOk {s : State} (hs : s.state = .idle) (hpre : s.preOk = true) :
    exec .start s = .next { clearFrame s with state := .pre } := by
  rw [(exec_of_acts_in_idle (i := .start) (by decide) s).1 hs]
  rw [commandAct, startFrame_of_begins (.inr hpre)]

/-- Settles O47: the START leaves eleven preamble bytes, their flush and all samples to come. -/
theorem startedMapperFrameHasTheCycleCount : Obligations.StartedMapperFrameHasTheCycleCount := by
  intro s t hs hsrc hpre hexec
  rw [exec_start_of_preOk hs hpre] at hexec
  obtain rfl := Host.Outcome.next.inj hexec
  rw [cyclesLeft_of_pre rfl]
  show 11 - 0 + 1 + cyclesFromRun s.params.pauseCycles.toNat (s.frameIdx.length - 0) 0 0 s.cfgTail = _
  simp only [cyclesFromRun, Nat.sub_zero, Nat.zero_add]
  omega

/-! The completed frame (R130, R163). -/

/-- Settles O60: once input has ended all of the mapper sequence has been taken, and the flush completes the frame of
the samples taken. -/
theorem completedMapperFrameTrace : Obligations.CompletedMapperFrameTrace := by
  rintro s ⟨hreg, -, hframe, hmapper⟩ hruns hquiet hs hsrc hstable hflush
  obtain ⟨-, -, -, heoi, -⟩ := hreg.row hs
  obtain ⟨-, -, -, hall, hbytes⟩ := hmapper (mapperFrame_of (by rw [hs]; rfl) hsrc)
  have htaken : s.taken = mapperSeq s.mem s.width.toNat s.height.toNat s.len.toNat s.offsetB := by
    rw [hbytes hstable, hall heoi, List.take_length]
    rfl
  have htrace : s.trace ++ [.flush] = frame s.taken s.cfgTail := by
    have hrow : FrameRow s .endFl := hs ▸ (frameInv_iff hreg).mp hframe
    simpa only [packVars_of_rest (.inr (.inr hs))] using hrow.2 heoi
  obtain ⟨m, u, heq⟩ := exists_afterWrites_eq s
  have hstep := stepWithoutACommandIsTheOwnAction s hruns hquiet
  rw [heq, ownCycle_endFl_of_flush_ok (s := { s with mem := m, unstable := u }) hs hflush] at hstep
  exact ⟨_, hstep, rfl, rfl, htaken ▸ htrace⟩

end Sys2Proof.Machine
end

section
/-! PROOFS. The configuration commands, START and SAMPLE by their rows (R173 to R178), the verdict table (R171), and the
states by their own actions (R151 to R155). -/

namespace Sys2Proof.Machine

/-! The commands. -/

/-- Settles O18: SETH is a command that acts in IDLE alone, and its pseudocode writes HEIGHT. -/
theorem sethSetsTheHeight : Obligations.SethSetsTheHeight :=
  ⟨decode_append (.seth 0), fun s arg => exec_of_acts_in_idle (i := .seth arg) (by simp [Instr.opcode]) s⟩

/-- Settles O19: SETLEN is a command that acts in IDLE alone, and its pseudocode writes LEN. -/
theorem setlenSetsTheLength : Obligations.SetlenSetsTheLength :=
  ⟨decode_append (.setlen 0), fun s arg => exec_of_acts_in_idle (i := .setlen arg) (by simp [Instr.opcode]) s⟩

/-- Settles O20: SETCFG is a command that acts in IDLE alone, and its pseudocode writes CFG. -/
theorem setcfgSetsTheConfiguration : Obligations.SetcfgSetsTheConfiguration :=
  ⟨decode_append (.setcfg 0), fun s c => exec_of_acts_in_idle (i := .setcfg c) (by simp [Instr.opcode]) s⟩

theorem startFrame_of_precond {s : State} (hsrc : s.cfgSrc = false) (hpre : s.preOk = false) :
    startFrame s = raiseError .precond s.state (clearFrame s) := by
  simp [startFrame, hsrc, hpre]

/-- Settles O21: where START acts, the length precondition decides between the two ends of its pseudocode. -/
theorem startBeginsAFrameOrRaisesPrecond : Obligations.StartBeginsAFrameOrRaisesPrecond := by
  refine ⟨decode_append .start, fun s => ?_⟩
  obtain ⟨hact, herror, hignore⟩ := exec_of_acts_in_idle (i := .start) (by decide) s
  refine ⟨fun hs hok => ?_, fun hs hsrc hlen => ?_, herror, hignore⟩
  · rw [hact hs, commandAct, startFrame_of_begins (hok.imp_right decide_eq_true)]
    rfl
  · rw [hact hs, commandAct, startFrame_of_precond hsrc (decide_eq_false hlen), hs]
    rfl

/-- Settles O22: SAMPLE is a command that feeds the input, and where it acts it is the pack step. -/
theorem sampleEntersThePackerInRun : Obligations.SampleEntersThePackerInRun := by
  refine ⟨decode_append (.sample 0), fun s b => ?_⟩
  obtain ⟨hact, hrest⟩ := exec_of_feeds_input (i := .sample b) (by simp [Instr.opcode]) s
  refine ⟨fun hs hsrc => ?_, hrest⟩
  rw [hact hs hsrc, commandAct, ← packBit_eq]
  rfl

/-! The verdict table. -/

/-- SAMPLE and END stall in the busy states of a stream-mode frame other than RUN (R171). -/
theorem inputVerdict_table (st : SeqState) (stream : Bool) {op : Opcode} (hop : op ∈ [Opcode.sample, .endInput]) :
    verdict op st stream =
      if st = .idle then .error .cmdState else if st = .error then .ignore
      else if stream = false then .error .cmdState else if st = .run then .act else .stall := by
  rw [verdict_of_feeds_input hop]
  by_cases hidle : st = .idle
  · simp [hidle]
  · simp [hidle]

/-- A word is not consumed where its verdict is to stall, which only SAMPLE and END get. -/
theorem cmdReady_eq_false_iff (op : Opcode) (st : SeqState) (stream : Bool) :
    cmdReady op st stream = false ↔
      (op = .sample ∨ op = .endInput) ∧ st ≠ .idle ∧ st ≠ .error ∧ stream = true ∧ st ≠ .run := by
  cases op <;> cases st <;> decide +revert

theorem SeqState.phase_eq_error_iff (q : SeqState) : q.phase = .error ↔ q = .error := by
  cases q <;> decide

/-- Settles O15: row by row. -/
theorem verdictTableAndCmdReady : Obligations.VerdictTableAndCmdReady := by
  intro st stream
  refine ⟨rfl, fun op hop => verdict_of_acts_in_idle hop st stream, fun op hop => inputVerdict_table st stream hop, ?_, ?_,
    fun op => cmdReady_eq_false_iff op st stream⟩
  · rw [verdict_clear]
    cases st <;> rfl
  · rw [verdict_reserved]
    simp only [SeqState.phase_eq_error_iff]

/-- Settles O13: without an own error the abort is the command's. -/
theorem commandErrorKeepsTheOwnActionsWrites : Obligations.CommandErrorKeepsTheOwnActionsWrites := by
  intro i s c hown hverdict
  rw [exec_of_verdict_error hverdict, abortedBy, hown]
  rfl

/-! The states. -/

/-- Settles O26: these states have no own action, and their rows offer nothing and read nothing. -/
theorem statesWithoutAnOwnAction : Obligations.StatesWithoutAnOwnAction := by
  intro s hs
  have hown : ownCycle s = s := by
    rcases hs with hs | hs | ⟨hs, hsrc⟩
    · exact ownCycle_of_not_busy s (SeqState.phase_ne_busy (.inl hs))
    · exact ownCycle_of_not_busy s (SeqState.phase_ne_busy (.inr hs))
    · simp [ownCycle, ownError, ownStep, stepRun, SeqState.offersByte, SeqState.requestsFlush, hs, hsrc]
  have hread : s.issuesRead = false := by
    rcases hs with hs | hs | ⟨-, hsrc⟩
    · exact State.issuesRead_of_ne_run (by rw [hs]; exact nofun)
    · exact State.issuesRead_of_ne_run (by rw [hs]; exact nofun)
    · exact State.issuesRead_of_stream hsrc
  have hquiet : s.state.offersByte = false ∧ s.state.requestsFlush = false := by
    rcases hs with hs | hs | ⟨hs, -⟩ <;> rw [hs] <;> exact ⟨rfl, rfl⟩
  refine ⟨hown, by simp [outputsOf, hquiet.1], by simp [outputsOf, hquiet.2], by simp [outputsOf, hread], fun hrun => ?_⟩
  rw [hrun]
  cases s.cfgSrc <;> exact ⟨rfl, rfl⟩

theorem offsetB_eq (s : State) : (s.offsetB : Int) = 1 - (s.cfgMaplit.toNat : Int) := by
  unfold State.offsetB
  cases s.cfgMaplit <;> rfl

theorem indexInBounds_eq_false_iff (s : State) : s.indexInBounds = false ↔ s.index < 0 ∨ (s.len.toNat : Int) ≤ s.index := by
  rw [State.indexInBounds, decide_eq_false_iff_not]
  omega

/-- Settles O29: the index decides between the end of input and the mapper step. -/
theorem runInMapperModeReadsOrEndsInput : Obligations.RunInMapperModeReadsOrEndsInput := by
  intro s i hs hsrc hi
  have hindex : i = s.index := by rw [hi, State.index, mapIndex, offsetB_eq]
  subst hindex
  refine ⟨fun hout => ?_, fun hlo hhi => ?_⟩
  · rw [ownCycle_run_end hs hsrc ((indexInBounds_eq_false_iff s).mpr hout)]
    exact ⟨endOfInput_of_tail, endOfInput_of_no_tail⟩
  · rw [ownCycle_run_read hs hsrc (decide_eq_true ⟨hlo, hhi⟩), mapperStep, advance]
    split <;> rfl

/-! The sample memory (R61, R69). -/

/-- Settles O44: a write of the host marks its address or unmarks it, and a marked address is read as a draw. -/
theorem hostWriteDuringAFrameMakesReadsDraws : Obligations.HostWriteDuringAFrameMakesReadsDraws := by
  refine ⟨fun s a b hm ha => ?_, fun s a b hfree => ?_, fun s hs hu => ?_⟩
  · simp [State.isUnstable, State.breaksStability, hm, ha]
  · have hkeeps : s.breaksStability a = false := by
      rcases hfree with h | h <;> simp [State.breaksStability, h]
    exact ⟨by simp [State.isUnstable, hkeeps], by simp [byteAt]⟩
  · rw [ownCycle_fetch hs, State.memRdata, State.drawsAfterRead, if_pos hu, if_pos hu]

end Sys2Proof.Machine
end

section
/-! PROOFS. Reset (R49, R230, R233), the step as the cycle of the decoded command (R150, R170), and the readback port
(R45, R46). -/

namespace Sys2Proof.Machine

/-! Reset. -/

/-- Settles O1: the state is a literal. -/
theorem resetStateHoldsTheSpecValues : Obligations.ResetStateHoldsTheSpecValues := by
  repeat' apply And.intro
  all_goals rfl

/-- A reset edge resets whatever the machine was doing, also where it was never reset before. -/
theorem step_of_rst {s : State} (hrange : writesInRange s.params s.pins.memWrites = true) (hrst : s.pins.rst = true) :
    step s = .next (endCycle (resetRegisters s.afterWrites)) :=
  (step_eq_next _ _).mpr ⟨.inr hrst, hrange, by rw [cycleResult, if_pos hrst]; rfl⟩

/-- Settles O2: the reset edge, and the outputs `rst` forces to 0. -/
theorem rstEdgeResetsEveryRegister : Obligations.RstEdgeResetsEveryRegister := by
  intro s hrange hrst
  refine ⟨step_of_rst hrange hrst, ?_, ?_, ?_, ?_, fun a => hostWrites_read_other s s.pins.memWrites a⟩ <;>
    simp [outputsOf, hrst]

theorem status_resetRegisters (s : State) : (resetRegisters s).status = 0 := by
  simp [resetRegisters, State.status, State.busy, SeqState.phase, SeqState.code, ErrCode.code, bit1]

/-- Settles O3: the refusal, and the reset edge. -/
theorem unresetMachineIsRefusedUntilOneRstEdge : Obligations.UnresetMachineIsRefusedUntilOneRstEdge := by
  refine fun s hever => ⟨fun hrst => ?_, fun hrst hrange => 
    ⟨_, step_of_rst hrange hrst, rfl, rfl, status_resetRegisters s.afterWrites⟩⟩
  simp [step, clockEdge, hever, hrst]

theorem defaultParams_legal : Config.defaultParams.Legal := by
  refine ⟨by decide, by decide, by decide, by decide, fun h => ?_, Nat.succ_pos _⟩
  have hlt := Config.pauseCyclesLessOne.isLt
  have hzero : (Config.pauseCyclesLessOne.val + 1) % 2 ^ 32 = 0 := by
    simpa [Config.defaultParams] using congrArg BitVec.toNat h
  omega

/-- Settles O4: the registers row by row, an empty memory, and no frame. -/
theorem resetStateMeetsTheInvariant : Obligations.ResetStateMeetsTheInvariant := by
  have hidle : State.reset.state = .idle := rfl
  have hreg : RegInv State.reset := (regInv_iff _).mpr
    ⟨⟨defaultParams_legal, by decide, by decide, by decide, by decide, by decide⟩, by decide,
      ⟨by decide, by decide, rfl, rfl, rfl⟩, cursorInv_of_not_busy (.inl hidle), ⟨rfl, rfl⟩⟩
  exact ⟨hreg, reset_memory_wf, (frameInv_iff hreg).mpr ⟨nofun, true, List.nil_prefix⟩,
    mapperInv_of_not_busy (SeqState.phase_ne_busy (.inl hidle))⟩

/-! The command on the port. -/

/-- A cycle with a word on the port and without reset is the cycle of the command the word decodes to. -/
theorem step_of_cmdValid {s : State} (hruns : Runs s) (hrst : s.pins.rst = false) (hvalid : s.pins.cmdValid = true) :
    step s = mapNext endCycle (exec (decode s.pins.cmdWord) s.afterWrites) := by
  obtain ⟨hever, hrange⟩ := hruns
  simp [step, clockEdge, cycleBody, State.afterWrites, hever, hrange, hrst, hvalid]

/-- Settles O10: the word offered by `withFetchWord` stands alone on the pins. -/
theorem stepRunsTheDecodedCommand : Obligations.StepRunsTheDecodedCommand := by
  refine ⟨fun s => step_of_cmdValid, fun s nbits w i hi => ?_⟩
  have hdecode : decode (BitVec.ofNat 32 (w % 2 ^ nbits)) = i := by
    unfold decodeTableWord at hi
    split at hi
    · exact Option.some.inj hi
    · exact absurd hi nofun
  have hstep := step_of_cmdValid (s := s.withFetchWord nbits w) ⟨rfl, rfl⟩ rfl rfl
  exact hdecode ▸ hstep

/-! The readback port. -/

/-- Settles O33: the registers are read zero-extended, so a width bound is the register's own. -/
theorem readbackMap : Obligations.ReadbackMap := by
  rintro s ⟨-, hwidth, hheight, hlen, hx, hy⟩
  have hext : ∀ {n} (v : BitVec n), n ≤ 32 → (v.setWidth 32).toNat = v.toNat := fun v hn => BitVec.toNat_setWidth_of_le hn
  have hw := hext s.width (by decide)
  have hh := hext s.height (by decide)
  have hl := hext s.len (by decide)
  have hcx := hext s.curX (by decide)
  have hcy := hext s.curY (by decide)
  exact ⟨rfl, hext s.cfg (by decide), hw, hw.trans_lt hwidth, hh, hh.trans_lt hheight, hl, hl.trans_lt hlen,
    hext s.acc (by decide), hcx, hcx.trans_lt hx, hcy, hcy.trans_lt hy, rfl, rfl, rfl, rfl, rfl, rfl, rfl, rfl⟩

/-- The flags of STATUS (R46). -/
theorem status_flags (s : State) :
    s.status.getLsbD 8 = s.done ∧ s.status.getLsbD 9 = s.busy ∧ s.status.getLsbD 10 = s.eoi ∧
      s.status.getLsbD 11 = s.tailEmit := by
  simp only [State.status, bit1, BitVec.getLsbD_append, BitVec.getLsbD_ofBool]
  simp

/-- The four-bit fields of STATUS (R46): each is the low end of the word once the fields below it are shifted out. -/
theorem status_fields (s : State) :
    s.status.extractLsb' 0 4 = s.state.code ∧ s.status.extractLsb' 4 4 = s.err.code ∧
      s.status.extractLsb' 12 4 = s.bitCnt ∧ s.status.extractLsb' 16 4 = s.byteCnt ∧
      s.status.extractLsb' 20 4 = s.preCnt ∧ s.status.extractLsb' 24 4 = s.tailBits ∧
      s.status.extractLsb' 28 4 = s.errState.code := by
  simp only [State.status, BitVec.extractLsb'_append_eq_of_le, Nat.reduceLeDiff, Nat.reduceSub]
  exact ⟨BitVec.extractLsb'_append_eq_right, BitVec.extractLsb'_append_eq_right, BitVec.extractLsb'_append_eq_right,
    BitVec.extractLsb'_append_eq_right, BitVec.extractLsb'_append_eq_right, BitVec.extractLsb'_append_eq_right,
    BitVec.extractLsb'_eq_self⟩

theorem busy_eq_true_iff (s : State) : s.busy = true ↔ s.state ≠ .idle ∧ s.state ≠ .error := by
  rw [State.busy, decide_eq_true_iff, SeqState.phase_eq_busy_iff]

/-- Settles O32: the fields in the order of the word. -/
theorem statusWordFields : Obligations.StatusWordFields := by
  intro s
  obtain ⟨hstate, herr, hbit, hbyte, hpre, htail, herrState⟩ := status_fields s
  obtain ⟨hdone, hbusy, heoi, hemit⟩ := status_flags s
  exact ⟨hstate, herr, hdone, hbusy ▸ busy_eq_true_iff s, heoi, hemit, hbit, hbyte, hpre, htail, herrState⟩

end Sys2Proof.Machine
end
